-- ==== Sys2Proof/Word.lean ====
section
/-!
DEFINITION. The words of the GJ-440 that the manual treats as bits: the 32-bit station frame value, bytes,
and the 10-bit words of an ancillary packet.
-/

namespace Sys2Proof

/-- A station frame value: a 32-bit unsigned count with arithmetic modulo 2^32 (00_scope.md, Frame values). -/
abbrev FrameValue := BitVec 32

/-- A byte of a control or status payload (R180). -/
abbrev Byte := BitVec 8

/-- A word of an ancillary packet (R180). -/
abbrev Word10 := BitVec 10

end Sys2Proof
end

