-- ==== Sys2Proof/Syntax.lean ====
section
/-!
DEFINITION. The commands and events of the GJ-440: one constructor of `Instr` for each row of
spec/opcode_table.json, with the operands the row's rules give it. Operands of control packets are the numbers a
payload can carry, in range or not: the owning block judges them (R165).
-/

namespace Sys2Proof

/-- The four channels (00_scope.md, Conventions). -/
inductive Channel
  | a | b | c | d
  deriving DecidableEq, Repr

/-- How a control packet matched (R163). -/
inductive Match
  | primary | secondary | allCall
  deriving DecidableEq, Repr

/-- The strapped frame rates 25, 29.97, 50 and 59.94 (R147). -/
inductive FrameRate
  | r25 | r29 | r50 | r59
  deriving DecidableEq, Repr

/-- The two windows of a layout. -/
inductive Window
  | programme | promo
  deriving DecidableEq, Repr

/-- The two gains of the mix (R133). -/
inductive GainName
  | gP | gR
  deriving DecidableEq, Repr

/-- A rectangle in pixels and lines: left edge, top edge, width, height (00_scope.md, Rectangles). -/
structure Rect where
  x : Nat
  y : Nat
  w : Nat
  h : Nat
  deriving DecidableEq, Repr

/-- A colour by its three 10-bit components (00_scope.md, Colours). -/
structure Colour where
  luma : Nat
  cb : Nat
  cr : Nat
  deriving DecidableEq, Repr

/-- A 4:2:2 picture of 10-bit samples, one array of samples per line: `width` luma samples and `width / 2` of each
chroma component (00_scope.md, Signal format). -/
structure Picture where
  width : Nat
  height : Nat
  luma : Array (Array Nat)
  cb : Array (Array Nat)
  cr : Array (Array Nat)
  deriving DecidableEq, Repr

/-- One sample of an embedded stereo pair: left and right, 24-bit signed. -/
abbrev Sample := Int × Int

/-- An ancillary packet: the line it stands on and its words after the three-word opening marker (R180). -/
structure AncPacket where
  line : Nat
  words : List Word10
  deriving DecidableEq, Repr

/-- What an input offers for one reference frame, with what its aligner judges it by (R155): the start of its frame
against the reference frame event in ticks, whether it was received without loss of signal, and its format. -/
structure InputFrame where
  offset : Int
  received : Bool
  pixels : Nat
  lines : Nat
  progressive : Bool
  tenBit422 : Bool
  rate : Option FrameRate
  picture : Picture
  pair1 : List Sample
  otherPairs : List (List Sample)
  /-- Ancillary packets outside the vertical blanking, which give no arrival (R160). -/
  activeAnc : List AncPacket
  deriving DecidableEq, Repr

/-- What the two promo inputs offer for one reference frame (R155). -/
structure PromoFrames where
  prm1 : InputFrame
  prm2 : InputFrame
  deriving DecidableEq, Repr

/-- The input frames of one channel frame event (R153), and what with the frame rate settles the number of audio
samples of the frame built (R143, R157). -/
structure FrameInputs where
  pgm : InputFrame
  promo : PromoFrames
  /-- The length in ticks of the reference frame the built frame leaves in: one nominal frame, unless R149 shortens or
  lengthens it (log entry 10). -/
  length : Nat
  /-- The frame is one of those that carry one sample more, at 29.97 and 59.94 (R143; log entry 10). -/
  long : Bool
  deriving DecidableEq, Repr

/-- A channel whose promo list takes an event, with what the promo inputs offer for the frame of it (R155). -/
structure ListEvent where
  channel : Channel
  offered : PromoFrames
  deriving DecidableEq, Repr

/-- A frame start of REF: the frame rate of REF, and the time since the frame start before it in ticks (R147, R149). -/
structure RefStart where
  rate : Option FrameRate
  since : Nat
  deriving DecidableEq, Repr

/-- The validity of the two promo inputs in a frame (R155). -/
structure PromoValidity where
  prm1 : Bool
  prm2 : Bool
  deriving DecidableEq, Repr

/-- The arrival of one ancillary packet of a frame of PGM-x (R160, R161). -/
structure Arrival where
  /-- It is the first ancillary packet in the vertical blanking of a new input frame. -/
  first : Bool
  /-- The channel frame event of its input frame has been taken already. -/
  afterFrameEvent : Bool
  /-- PGM-x is valid in its frame (R156). -/
  valid : Bool
  packet : AncPacket
  deriving DecidableEq, Repr

/-- The fields SCHEDULE and CUE share (R2, R8, R181). -/
structure InsertFields where
  tag : Nat
  slot : Nat
  firstBank : Nat
  credit : Nat
  endAction : Nat
  watch : Option Nat
  deriving DecidableEq, Repr

/-- One item as an ITEMS packet carries it (R67, R182). -/
structure RawItem where
  tag : Nat
  source : Nat
  timing : Nat
  duration : Nat
  gateLimit : Option Nat
  pgmAudio : Option Nat
  prmAudio : Option Nat
  deriving DecidableEq, Repr

/-- A template record as a TEMPLATE_WRITE carries it (R101, R183). -/
structure RawTemplate where
  label : Option (List Nat)
  pgmTarget : Rect
  prmStart : Rect
  prmTarget : Rect
  layering : Nat
  mIn : Nat
  mOut : Nat
  easeIn : Nat
  easeOut : Nat
  backing : Colour
  borderWidth : Nat
  borderColour : Colour
  pgmAudio : Nat
  prmAudio : Nat
  deriving DecidableEq, Repr

/-- A nonvolatile protection part as a PROTECT_SET carries it (R128, R181). -/
structure RawProtection where
  mode : Nat
  side : Nat
  sizeCode : Nat
  complement : Nat
  storedGuard : Nat
  deriving DecidableEq, Repr

/-- The settings a SET_UNIT carries (R169, R181). -/
structure RawUnit where
  primaryId : Nat
  secondId : Nat
  mask : Nat
  allCall : Nat
  consume : Nat
  deriving DecidableEq, Repr

/-- The rows of spec/opcode_table.json. A row that is a control command stands for a taken packet from stage 6 of
R161 on, with the way it matched; PACKET_ARRIVAL carries a packet through every stage (log entry 3). A row that
names something which comes about inside an event runs the owning block's own work when that work brings it about
(log entry 2). -/
inductive Instr
  | powerOn (frs1 frs0 : Bool)
  | referenceFrameEvent
  | refLoss
  | refFrameStart (start : RefStart) (sinceEvent : Nat)
  | refQualifyMiss (sinceEvent : Nat)
  | channelFrameEvent (ch : Channel) (inp : FrameInputs)
  | libraryFrameEvent
  | operationComplete
  | fetchServed (ch : Channel)
  | packetArrival (ch : Channel) (arr : Arrival)
  | schedule (ch : Channel) (m : Match) (start : FrameValue) (f : InsertFields)
  | cue (ch : Channel) (m : Match) (offset : Nat) (f : InsertFields)
  | delete (ch : Channel) (m : Match) (start : FrameValue)
  | clearSchedule (ch : Channel) (m : Match)
  | setTolerance (ch : Channel) (m : Match) (value : Nat)
  | endHold (ch : Channel) (m : Match)
  | extend (ch : Channel) (m : Match)
  | abort (ch : Channel) (m : Match)
  | openBank (ch : Channel) (m : Match) (bank count chain : Nat)
  | items (ch : Channel) (m : Match) (its : List RawItem)
  | cancelLoad (ch : Channel) (m : Match)
  | setUnit (ch : Channel) (m : Match) (u : RawUnit)
  | clearEvents (ch : Channel) (m : Match) (mask : BitVec 16)
  | readback (ch : Channel) (m : Match) (target keyA keyB : Nat)
  | resetArm (ch : Channel) (m : Match) (scope : Nat)
  | reset (ch : Channel) (m : Match) (scope : Nat)
  | resetArmExpiry (ch : Channel)
  | setTime (ch : Channel) (m : Match) (value : FrameValue)
  | templateWrite (ch : Channel) (m : Match) (slot : Nat) (t : RawTemplate)
  | templateErase (ch : Channel) (m : Match) (slot : Nat)
  | protectSet (ch : Channel) (m : Match) (r : RawProtection)
  | lockSlot (ch : Channel) (m : Match) (slot : Nat)
  | unlockSlot (ch : Channel) (m : Match) (slot : Nat)
  | lockAll (ch : Channel) (m : Match)
  | unlockAll (ch : Channel) (m : Match)
  | freeze (ch : Channel) (m : Match)
  | setManagement (ch : Channel) (m : Match) (flags : Byte)
  | libguardChange (asserted : Bool)
  | arm (ch : Channel)
  | scalerGrant
  | missedBusy (ch : Channel)
  | startEvent (ch : Channel)
  | creditTimerExpiry (ch : Channel)
  | watchExpiry (ch : Channel)
  | endCauseTaken (ch : Channel)
  | squeezeMoveEnd (ch : Channel)
  | releaseMoveEnd (ch : Channel)
  | takeoverMoveEnd (ch : Channel)
  | takeoverListEnd (ch : Channel)
  | promoFullEnd (ch : Channel)
  | itemDurationExpiry (ch : Channel) (offered : PromoFrames)
  | gateLimitExpiry (ch : Channel) (offered : PromoFrames)
  | successorStart (event : ListEvent)
  | loadTimeout (ch : Channel)
  | sourceHoldExpiry (ch : Channel) (w : Window) (inp : FrameInputs)
  | gainRampEnd (ch : Channel) (g : GainName) (inp : FrameInputs)
  deriving DecidableEq, Repr

end Sys2Proof
end

