-- ==== Sys2Proof/Config.lean ====
section
/-!
DEFINITION. The constants the manual fixes for the part, and the values it leaves open. A constant with no body is
a free value: no proof can see what it is (log entries 4, 9 and 11).
-/

namespace Sys2Proof.Config

/-- The arm lead, the same at every frame rate and not programmable (R14). -/
def armLead : Nat := 12

/-- The number of scalers in the pool (R88). -/
def poolSize : Nat := 6

/-- The number of entries a schedule may hold (R1). -/
def scheduleSize : Nat := 16

/-- The greatest late tolerance (R1, R7). -/
def maxTolerance : Nat := 4

/-- The late tolerance after every reset (R7, R20). -/
def resetTolerance : Nat := 2

/-- The greatest offset of a CUE (R8). -/
def maxCueOffset : Nat := 1000

/-- The greatest watch window (R2, R3). -/
def maxWatch : Nat := 250

/-- The idle countdown of a load context when it is loaded (R70). -/
def loadWindow : Nat := 250

/-- The number of control packets examined in one input frame (R161). -/
def packetLimit : Nat := 8

/-- The number of entries of the result list (R176). -/
def resultSize : Nat := 4

/-- The value at which a hold counter stays (R139, R140). -/
def holdLimit : Nat := 6

/-- Items started is counted to this value and no further (R66, R80). -/
def maxItemsStarted : Nat := 62

/-- One in the fixed-point scale of gains, eased progress and resampler steps (00_scope.md, Arithmetic). -/
def one : Nat := 65536

/-- The length of a gain ramp in samples (R143). -/
def rampLength : Nat := 1024

/-- Ticks in one nominal reference frame: the unit of the operands that carry a time inside a frame.
DESIGN CHOICE (safe): the manual gives fractions of a frame only; log entry 6. -/
def frameTicks : Nat := 65536

/-- Frame starts of REF that qualify it (R149). -/
def qualifyCount : Nat := 8

/-- The lines of a frame that are its vertical blanking are 1 to this line (R160). -/
def lastBlankingLine : Nat := 41

/-- The line at which the status packet is inserted (R175). -/
def statusLine : Nat := 12

/-- Free value: the coefficient of the horizontal filter for a phase and a tap other than the left tap.
R65 says only that the coefficients are fixed, sum to one and are the left tap alone at phase 0 (log entry 9). -/
opaque horizontalTap : Nat → Nat → Rat

/-- Free value: the coefficient of the vertical filter for a phase and a tap other than the left tap
(R65; log entry 9). -/
opaque verticalTap : Nat → Nat → Rat

/-- Free value: whether the horizontally filtered picture is rounded and limited before the vertical filter weighs
it, which R64 and R65 leave open (log entry 9). -/
opaque roundsBetweenFilters : Bool

/-- Free value: which of the 24 orders the notices of one SET_TIME take to the four channels, by the number of
the SET_TIME (R98, R151; log entry 11). -/
opaque noticeOrder : Nat → Nat

/-- Free value: whether an end cause restores where the list would be exhausted only by a successor that the cut
of that very restore keeps from starting (R39, R80, R84; log entry 4). -/
opaque restoresOnDoomedSuccessor : Bool

end Sys2Proof.Config
end

