-- ==== Sys2Proof/Machine/State.lean ====
section
/-!
DEFINITION. The state of the GJ-440: every piece of state its chapters name, the queue of waiting commands, and the
reasons a step can stop. All of it is plain data.
-/

namespace Sys2Proof.Machine

/-- A command with no meaning is the only thing the model could refuse. -/
inductive Refusal
  /-- Raised by an arm of `exec` that has no meaning yet; no arm does so (safe). -/
  | notModelled (mnemonic : String)
  deriving DecidableEq, Repr

/-- The reasons the machine stops. The GJ-440 has none: a command it does not accept is answered with a result code,
and every event is taken in every state. No constructor, so no meaning can fault. -/
inductive Fault
  deriving DecidableEq, Repr

/-- One value for each channel. -/
structure PerChannel (α : Type) where
  a : α
  b : α
  c : α
  d : α
  deriving DecidableEq, Repr

/-- The value of one channel. -/
def PerChannel.get {α : Type} (p : PerChannel α) : Channel → α
  | .a => p.a
  | .b => p.b
  | .c => p.c
  | .d => p.d

/-- The values with one channel's replaced. -/
def PerChannel.set {α : Type} (p : PerChannel α) (ch : Channel) (v : α) : PerChannel α :=
  match ch with
  | .a => { p with a := v }
  | .b => { p with b := v }
  | .c => { p with c := v }
  | .d => { p with d := v }

/-- The values with each replaced by a function of it. -/
def PerChannel.map {α β : Type} (f : α → β) (p : PerChannel α) : PerChannel β :=
  { a := f p.a, b := f p.b, c := f p.c, d := f p.d }

/-! ### Reference and Frame Counter (chapter 9) -/

/-- The reference state (R146). -/
inductive RefState
  | locked | freeRun
  deriving DecidableEq, Repr

/-- What the Reference and Frame Counter holds (R146). The qualifying count is absent while it is not kept (R149). -/
structure RefCounter where
  rate : FrameRate
  state : RefState
  qualifying : Option Nat
  sfc : FrameValue
  refLost : Bool
  deriving DecidableEq, Repr

/-! ### Layouts (chapters 3 and 6) -/

/-- Which window is on top (R101). -/
inductive Layering
  | programmeOnTop | promoOnTop
  deriving DecidableEq, Repr

/-- The easing of a move (R51). -/
inductive Easing
  | linear | easeIn | easeOut | easeBoth
  deriving DecidableEq, Repr

/-- A template that has passed validation (R101, R102). -/
structure Template where
  label : Option (List Nat)
  pgmTarget : Rect
  prmStart : Rect
  prmTarget : Rect
  layering : Layering
  mIn : Nat
  mOut : Nat
  easeIn : Easing
  easeOut : Easing
  backing : Colour
  borderWidth : Nat
  borderColour : Colour
  pgmAudio : Nat
  prmAudio : Nat
  deriving DecidableEq, Repr

/-! ### Library Protection (chapter 7) -/

/-- How the protected set is described (R121). -/
inductive ProtectMode
  | range | individual
  deriving DecidableEq, Repr

/-- The end the range is counted from (R121). -/
inductive Side
  | low | high
  deriving DecidableEq, Repr

/-- The stored guard mode (R121). -/
inductive StoredGuard
  | opened | guarded
  deriving DecidableEq, Repr

/-- The guard in force (R121). -/
inductive GuardState
  | opened | guarded | frozen
  deriving DecidableEq, Repr

/-- The nonvolatile part of the protection record (R121). -/
structure Protection where
  mode : ProtectMode
  side : Side
  sizeCode : Nat
  complement : Bool
  storedGuard : StoredGuard
  deriving DecidableEq, Repr

/-- What Library Protection holds (R121): the record, nonvolatile and volatile, and the LIBGUARD sense. -/
structure LibraryProtection where
  record : Protection
  locks : Vector Bool 32
  guardState : GuardState
  libguard : Bool
  deriving DecidableEq, Repr

/-! ### Template Library (chapter 6) -/

/-- A stored slot 1 to 32 (R104). -/
inductive StoredSlot
  | blank
  | valid (t : Template)
  | invalid
  | underOperation
  deriving DecidableEq, Repr

/-- A stored slot's number, 1 to 32 written as 0 to 31. -/
abbrev SlotIndex := Fin 32

/-- The operation in flight, with what it carries (R104). -/
inductive Operation
  | write (slot : SlotIndex) (t : Template)
  | erase (slot : SlotIndex)
  | protectSet (staged : Protection)
  deriving DecidableEq, Repr

/-- An operation in flight and its progress (R104); its length is fixed by its kind. -/
structure InFlight where
  op : Operation
  progress : Nat
  deriving DecidableEq, Repr

/-- A fetch: the channel whose engine sent it and the slot (R104). -/
structure Fetch where
  channel : Channel
  slot : Nat
  deriving DecidableEq, Repr

/-- Where a channel's fetch is (R118); the place in the queue is read from the queue. -/
inductive FetchState
  | none | queued | setAside | served
  deriving DecidableEq, Repr

/-- What the Template Library holds (R104, R112, R118). -/
structure Library where
  stored : Vector StoredSlot 32
  volatileSlots : Vector (Option Template) 8
  operation : Option InFlight
  fetchQueue : List Fetch
  setAside : List Fetch
  storeFail : Bool
  suspended : Bool
  deriving DecidableEq, Repr

/-! ### Scaler Pool and Arbiter (chapter 5) -/

/-- The request state (R88). -/
inductive RequestState
  | none | waiting | granted
  deriving DecidableEq, Repr

/-- A channel's request record (R88). -/
structure Request where
  state : RequestState
  requested : Nat
  start : FrameValue
  granted : Nat
  deriving DecidableEq, Repr

/-- The request records and the request queue (R88). -/
structure Pool where
  records : PerChannel Request
  queue : List Channel
  deriving DecidableEq, Repr

/-! ### Junction Schedule (chapter 1) -/

/-- The two banks of a channel (R66). -/
inductive BankId
  | bank0 | bank1
  deriving DecidableEq, Repr

/-- What follows a hold (R2). -/
inductive EndAction
  | restore | takeover
  deriving DecidableEq, Repr

/-- A schedule entry (R2). -/
structure Entry where
  start : FrameValue
  tag : Nat
  slot : Nat
  firstBank : BankId
  credit : Nat
  watch : Option Nat
  endAction : EndAction
  late : Bool
  lateness : Nat
  deriving DecidableEq, Repr

/-- A channel's schedule, its entries in schedule order (R1, R4). -/
structure Schedule where
  entries : List Entry
  tolerance : Nat
  deriving DecidableEq, Repr

/-! ### Junction Engine (chapters 2 and 3) -/

/-- The engine state (R21). -/
inductive EngineState
  | idle | armed | squeeze | held | release | takeover | promoFull
  deriving DecidableEq, Repr

/-- What ended a hold (R38). -/
inductive EndCause
  | abort | endCommand | creditTimer | watch | listEnd
  deriving DecidableEq, Repr

/-- What the pending-end marker may hold (R21). -/
inductive Marker
  | endCommand | listEnd
  deriving DecidableEq, Repr

/-- The active junction record (R15, R23). A template of `none` is the marker AWAITED. -/
structure JunctionRecord where
  start : FrameValue
  tag : Nat
  slot : Nat
  firstBank : BankId
  credit : Nat
  watch : Option Nat
  endAction : EndAction
  lateness : Nat
  requested : Nat
  granted : Nat
  template : Option Template
  fallbackUsed : Bool
  itemsPlayed : Nat
  endCause : Option EndCause
  latenessTaken : Nat
  deriving DecidableEq, Repr

/-- The two ends of a window's move (R48). -/
structure Ends where
  src : Rect
  dst : Rect
  deriving DecidableEq, Repr

/-- The move record (R48). -/
structure MoveRecord where
  pgm : Option Ends
  promo : Ends
  length : Nat
  easing : Easing
  deriving DecidableEq, Repr

/-- What a Junction Engine holds (R21), with the degraded mark of R28 and the scaler assignment of R60. -/
structure Engine where
  state : EngineState
  record : Option JunctionRecord
  k : Nat
  m : Nat
  move : Option MoveRecord
  credit : Option Nat
  watch : Option Nat
  pgmRect : Option Rect
  promoRect : Option Rect
  marker : Option Marker
  degraded : Bool
  pgmScaled : Bool
  promoScaled : Bool
  deriving DecidableEq, Repr

/-! ### Promo List (chapter 4) -/

/-- What the promo window shows while an item is current (R67). -/
inductive Source
  | prm1 | prm2 | backing
  deriving DecidableEq, Repr

/-- The timing of an item, a GATED one with the gate limit stored with it (R67). -/
inductive Timing
  | fixed
  | gated (limit : Nat)
  deriving DecidableEq, Repr

/-- An accepted item (R67). -/
structure Item where
  tag : Nat
  source : Source
  duration : Nat
  timing : Timing
  pgmAudio : Option Nat
  prmAudio : Option Nat
  deriving DecidableEq, Repr

/-- The bank state (R69). -/
inductive BankState
  | empty | loading | ready | playing | spent
  deriving DecidableEq, Repr

/-- A bank (R66). -/
structure Bank where
  state : BankState
  items : List Item
  chain : Bool
  deriving DecidableEq, Repr

/-- The item phase (R66). -/
inductive Phase
  | running | finished | exhausted
  deriving DecidableEq, Repr

/-- The current item of a play position, with its counters (R66). That the duration counter is absent, and reported as 0,
where there is no current item is the model's choice (log entry 33). -/
structure Cursor where
  index : Nat
  phase : Phase
  duration : Nat
  gate : Option Nat
  deriving DecidableEq, Repr

/-- The play position (R66). -/
structure Play where
  bank : Option BankId
  cursor : Option Cursor
  started : Nat
  deriving DecidableEq, Repr

/-- What a Promo List holds (R66). -/
structure PromoList where
  bank0 : Bank
  bank1 : Bank
  play : Play
  deriving DecidableEq, Repr

/-! ### Composer and Audio Mixer (chapter 8) -/

/-- A gain: its present value, its target, the value its ramp started from and the ramp position the next sample
takes, absent when no ramp runs (R133, R143). -/
structure Gain where
  present : Nat
  target : Nat
  start : Nat
  position : Option Nat
  deriving DecidableEq, Repr

/-- The default audio codes of the template in use (R133). -/
structure AudioCodes where
  pgm : Nat
  prm : Nat
  deriving DecidableEq, Repr

/-- The template settings a composer has in force (R133, R134). -/
structure Look where
  layering : Option Layering
  backing : Colour
  borderWidth : Nat
  borderColour : Colour
  codes : Option AudioCodes
  deriving DecidableEq, Repr

/-- A hold counter with its hold picture (R133). -/
structure Hold where
  counter : Nat
  picture : Option Picture
  deriving DecidableEq, Repr

/-- What a Composer and Audio Mixer holds (R133). -/
structure Composer where
  look : Look
  pgmHold : Hold
  promoHold : Hold
  gP : Gain
  gR : Gain
  deriving DecidableEq, Repr

/-- An output frame: its picture, its embedded audio and its ancillary packets (R135, R157). -/
structure OutFrame where
  picture : Picture
  pair1 : List Sample
  otherPairs : List (List Sample)
  anc : List AncPacket
  deriving DecidableEq, Repr

/-- The output of a channel: the packets of the input frame in progress that go to OUT-x, the frame built at the
channel frame event, and the frame leaving the part in this reference frame (R135, R157). -/
structure Output where
  passed : List AncPacket
  built : Option OutFrame
  leaving : Option OutFrame
  deriving DecidableEq, Repr

/-! ### Control Parser (chapter 10) -/

/-- The scope of a reset by command (R171). -/
inductive Scope
  | channel | part
  deriving DecidableEq, Repr

/-- A reset arm and its window (R159). -/
structure ResetArm where
  scope : Scope
  window : Nat
  deriving DecidableEq, Repr

/-- An open load context (R159). -/
structure LoadContext where
  bank : BankId
  remaining : Nat
  countdown : Nat
  deriving DecidableEq, Repr

/-- The addressing settings of a parser (R159). -/
structure Addressing where
  primaryId : Byte
  secondId : Byte
  mask : Byte
  allCall : Bool
  consume : Bool
  deriving DecidableEq, Repr

/-- What a Control Parser holds (R159). -/
structure Parser where
  addressing : Addressing
  packetCount : Nat
  skip : Bool
  arm : Option ResetArm
  context : Option LoadContext
  deriving DecidableEq, Repr

/-! ### Status Reporter (chapter 11) -/

/-- The result codes (10_in_band_control.md, Result codes). -/
inductive ResultCode
  | ok | sealed | badCommand | badField | busy | full | duplicate | late | conflict | notFound | wrongState
  | noContext | badCount | protectedSlot | guarded | frozen | notManager | notArmed
  deriving DecidableEq, Repr

/-- An entry of the result list (R176). -/
structure ResultEntry where
  kind : Nat
  code : ResultCode
  how : Match
  deriving DecidableEq, Repr

/-- The outcome of a junction (R46). -/
inductive JunctionOutcome
  | completedRestore | completedTakeover | aborted | missedBusy | missedNoScaler | missedTimeJump
  deriving DecidableEq, Repr

/-- The last-junction record (R178). -/
structure LastJunction where
  tag : Nat
  start : FrameValue
  outcome : JunctionOutcome
  endCause : Option EndCause
  itemsPlayed : Nat
  fallbackUsed : Bool
  scalersGranted : Nat
  latenessTaken : Nat
  deriving DecidableEq, Repr

/-- The state of a slot as a readback reports it (R184). -/
inductive SlotReport
  | blank
  | valid (t : Template)
  | invalid
  | underOperation
  deriving DecidableEq, Repr

/-- The content of the readback section with its keys (R179). -/
inductive Readback
  | template (slot : Nat) (content : SlotReport)
  | entry (index : Nat) (content : Entry)
  | item (bank : BankId) (index : Nat) (content : Item)
  deriving DecidableEq, Repr

/-- What a Status Reporter holds (R175). -/
structure Reporter where
  flags : BitVec 10
  results : List ResultEntry
  omitted : Bool
  last : Option LastJunction
  readback : Option Readback
  deriving DecidableEq, Repr

/-! ### The whole part -/

/-- The blocks of one channel, its tally line Jx and its fetch state. -/
structure ChannelState where
  schedule : Schedule
  engine : Engine
  promo : PromoList
  composer : Composer
  parser : Parser
  reporter : Reporter
  fetch : FetchState
  tally : Bool
  output : Output
  deriving DecidableEq, Repr

/-- The whole part, and the model's own two fields: the free-value counter and the queue of waiting commands. -/
structure State where
  ref : RefCounter
  pool : Pool
  library : Library
  protection : LibraryProtection
  management : PerChannel Bool
  channels : PerChannel ChannelState
  /-- What the promo inputs' aligners offered for the reference frame in progress, judged once for every channel, and
  none until an event of the frame reads it (R155; log entry 5). -/
  aligned : Option PromoFrames
  freeCount : Nat
  pending : List Instr
  deriving DecidableEq, Repr

/-! ### Values after the resets -/

/-- The full frame (00_scope.md, Rectangles). -/
def fullFrame : Rect := { x := 0, y := 0, w := 1920, h := 1080 }

/-- Black (R133). -/
def black : Colour := { luma := 64, cb := 512, cr := 512 }

/-- The Reference and Frame Counter after power-on (R146). -/
def RefCounter.atPowerOn (rate : FrameRate) : RefCounter :=
  { rate := rate, state := .freeRun, qualifying := some 0, sfc := 0, refLost := true }

/-- A request record that is NONE (R99). -/
def Request.none : Request := { state := .none, requested := 0, start := 0, granted := 0 }

/-- The pool after power-on and part reset (R99). -/
def Pool.atReset : Pool :=
  { records := { a := .none, b := .none, c := .none, d := .none }, queue := [] }

/-- The library of a delivered part after its first power-on (R119). -/
def Library.delivered : Library :=
  { stored := Vector.replicate 32 .blank, volatileSlots := Vector.replicate 8 none, operation := none,
    fetchQueue := [], setAside := [], storeFail := false, suspended := false }

/-- The nonvolatile protection part as delivered (R121). -/
def Protection.delivered : Protection :=
  { mode := .range, side := .low, sizeCode := 0, complement := false, storedGuard := .opened }

/-- The guard state a stored guard mode gives at power-on (R121, R131). -/
def StoredGuard.toGuard : StoredGuard → GuardState
  | .opened => .opened
  | .guarded => .guarded

/-- Library Protection of a delivered part after its first power-on (R121, R131); LIBGUARD left open reads
deasserted (R121). -/
def LibraryProtection.delivered : LibraryProtection :=
  { record := .delivered, locks := Vector.replicate 32 true, guardState := .opened, libguard := false }

/-- Management enable after power-on and part reset: channel A only (R159). -/
def managementAtReset : PerChannel Bool := { a := true, b := false, c := false, d := false }

/-- A schedule after every reset (R20). -/
def Schedule.atReset : Schedule := { entries := [], tolerance := Config.resetTolerance }

/-- The values an engine holds in IDLE, which are those after every reset (R21, R45). -/
def Engine.idle : Engine :=
  { state := .idle, record := none, k := 0, m := 0, move := none, credit := none, watch := none,
    pgmRect := some fullFrame, promoRect := none, marker := none, degraded := false, pgmScaled := false,
    promoScaled := false }

/-- An empty bank (R69, R86). -/
def Bank.empty : Bank := { state := .empty, items := [], chain := false }

/-- The play position outside a junction: no current item, and so no duration counter (R85, R86; log entry 33). -/
def Play.none : Play := { bank := Option.none, cursor := Option.none, started := 0 }

/-- A promo list after every reset (R86). -/
def PromoList.atReset : PromoList := { bank0 := .empty, bank1 := .empty, play := .none }

/-- The settings a composer has outside a junction (R133). -/
def Look.outside : Look :=
  { layering := none, backing := black, borderWidth := 0, borderColour := black, codes := none }

/-- A gain at its target with no ramp running. -/
def Gain.settled (v : Nat) : Gain := { present := v, target := v, start := v, position := none }

/-- A hold counter at 0 with no hold picture. -/
def Hold.clear : Hold := { counter := 0, picture := none }

/-- A composer after every reset (R133). -/
def Composer.atReset : Composer :=
  { look := .outside, pgmHold := .clear, promoHold := .clear, gP := .settled Config.one, gR := .settled 0 }

/-- The default primary IDs (R159). -/
def defaultId : Channel → Byte
  | .a => 0x21
  | .b => 0x22
  | .c => 0x23
  | .d => 0x24

/-- The addressing settings after power-on and part reset (R159). -/
def Addressing.default (ch : Channel) : Addressing :=
  { primaryId := defaultId ch, secondId := 0, mask := 0xFF, allCall := true, consume := true }

/-- A parser after power-on (R159). -/
def Parser.atPowerOn (ch : Channel) : Parser :=
  { addressing := .default ch, packetCount := 0, skip := false, arm := none, context := none }

/-- A status reporter after every reset (R175). -/
def Reporter.atReset : Reporter :=
  { flags := 0, results := [], omitted := false, last := none, readback := none }

/-- No frame built, none leaving and no packet waiting.
DESIGN CHOICE (safe): the manual names no output frame before the first channel frame event; log entry 18. -/
def Output.empty : Output := { passed := [], built := none, leaving := none }

/-- The blocks of one channel after power-on. -/
def ChannelState.atPowerOn (ch : Channel) : ChannelState :=
  { schedule := .atReset, engine := .idle, promo := .atReset, composer := .atReset, parser := .atPowerOn ch,
    reporter := .atReset, fetch := .none, tally := false, output := .empty }

/-- The four channels after power-on. -/
def channelsAtPowerOn : PerChannel ChannelState :=
  { a := .atPowerOn .a, b := .atPowerOn .b, c := .atPowerOn .c, d := .atPowerOn .d }

/-- The part right after its first power-on. The straps are 00, a rate of 25 (DESIGN CHOICE, unsafe: the manual
leaves the straps to the board; log entry 7), and LIBGUARD is open (log entry 8). -/
def State.reset : State :=
  { ref := .atPowerOn .r25, pool := .atReset, library := .delivered, protection := .delivered,
    management := managementAtReset, channels := channelsAtPowerOn, aligned := none,
    freeCount := 0, pending := [] }

/-! ### Reading and replacing a channel -/

/-- The blocks of one channel. -/
def State.chan (s : State) (ch : Channel) : ChannelState := s.channels.get ch

/-- The state with one channel's blocks replaced. -/
def State.setChan (s : State) (ch : Channel) (c : ChannelState) : State :=
  { s with channels := s.channels.set ch c }

end Sys2Proof.Machine
end

