-- ==== Sys2Proof/Machine/Flags.lean ====
section
/-!
DEFINITION. The Status Reporter's registers: sticky event flags (R177), result list (R176), last-junction record
(R178), and the changes other blocks make to them.
-/

namespace Sys2Proof.Machine

/-- One channel's blocks changed by a function of them. -/
def State.modChan (s : State) (ch : Channel) (f : ChannelState → ChannelState) : State :=
  s.setChan ch (f (s.chan ch))

/-- Every channel's blocks changed by a function of them. -/
def State.mapChans (s : State) (f : Channel → ChannelState → ChannelState) : State :=
  { s with
    channels :=
      { a := f .a s.channels.a, b := f .b s.channels.b, c := f .c s.channels.c, d := f .d s.channels.d } }

/-- The sticky event flags (R177). -/
inductive Flag
  | missed | lateTaken | fallbackUsed | scalerShort | bankUnderrun | noPromos | loadTimeout | sourceHold | packetLimit
  | timeJump
  deriving DecidableEq, Repr

/-- The bit of a flag in the status packet and in the mask of CLEAR_EVENTS (R177). -/
def Flag.bit : Flag → Nat
  | .missed => 0
  | .lateTaken => 1
  | .fallbackUsed => 2
  | .scalerShort => 3
  | .bankUnderrun => 4
  | .noPromos => 5
  | .loadTimeout => 6
  | .sourceHold => 7
  | .packetLimit => 8
  | .timeJump => 9

/-- The word with a flag's bit alone set. -/
def Flag.word (f : Flag) : BitVec 10 := BitVec.twoPow 10 f.bit

/-- Whether a flag is set. -/
def Reporter.flag (r : Reporter) (f : Flag) : Bool := r.flags.getLsbD f.bit

/-- A flag set; one already set stays set (R177). -/
def Reporter.raise (r : Reporter) (f : Flag) : Reporter := { r with flags := r.flags ||| f.word }

/-- A flag set when a condition holds. -/
def Reporter.raiseIf (r : Reporter) (b : Bool) (f : Flag) : Reporter := if b then r.raise f else r

/-- The flags whose mask bit is 1 cleared; mask bits 10 to 15 are ignored (R177). -/
def Reporter.clearMask (r : Reporter) (mask : BitVec 16) : Reporter :=
  { r with flags := r.flags &&& ~~~ (mask.setWidth 10) }

/-- An entry appended to the result list: a fifth entry removes the oldest and sets OMITTED (R176). -/
def Reporter.append (r : Reporter) (e : ResultEntry) : Reporter :=
  if r.results.length < Config.resultSize then { r with results := r.results ++ [e] }
  else { r with results := r.results.drop 1 ++ [e], omitted := true }

/-- The last-junction record replaced (R178). -/
def Reporter.record (r : Reporter) (l : LastJunction) : Reporter := { r with last := some l }

/-- A change of one channel's Status Reporter. -/
def State.modReporter (s : State) (ch : Channel) (f : Reporter → Reporter) : State :=
  s.modChan ch fun c => { c with reporter := f c.reporter }

/-- A sticky event flag of a channel set. -/
def State.raise (s : State) (ch : Channel) (f : Flag) : State := s.modReporter ch (·.raise f)

/-- The record of an entry missed by the schedule (R16, R17). -/
def missRecord (e : Entry) (o : JunctionOutcome) : LastJunction :=
  { tag := e.tag, start := e.start, outcome := o, endCause := none, itemsPlayed := 0, fallbackUsed := false,
    scalersGranted := 0, latenessTaken := 0 }

end Sys2Proof.Machine
end

