-- ==== Sys2Proof/Machine/Geometry.lean ====
section
/-!
DEFINITION. The arithmetic of chapters 3 and 5 on templates and rectangles: progress, easing, interpolation,
evenness and clamp (R50 to R55), resampler steps (R62) and scaler need (R89).
-/

namespace Sys2Proof.Machine

/-- The progress of the frame showing counter `k` of a move of length `m` (R50). -/
def progress (k m : Nat) : Nat := k * 65536 / m

/-- The eased value of a progress (R51). -/
def eased : Easing → Nat → Nat
  | .linear, p => p
  | .easeIn, p => p * p / 65536
  | .easeOut, p => 65536 - (65536 - p) * (65536 - p) / 65536
  | .easeBoth, p =>
    if p < 32768 then 2 * (p * p) / 65536 else 65536 - 2 * ((65536 - p) * (65536 - p)) / 65536

/-- A coordinate interpolated at an eased value, halves rounded up (R53). `Int` division by a positive number is
floor, and the result is never negative (R53, R56). -/
def interpolate (e c0 c1 : Nat) : Nat :=
  ((c0 : Int) + (((c1 : Int) - (c0 : Int)) * (e : Int) + 32768) / 65536).toNat

/-- The nearest even number not above a number (R54). -/
def evenDown (n : Nat) : Nat := n - n % 2

/-- A rectangle clamped to the frame (R55). -/
def clampRect (r : Rect) : Rect :=
  { r with
    x := if r.x + r.w > 1920 then 1920 - r.w else r.x
    y := if r.y + r.h > 1080 then 1080 - r.h else r.y }

/-- The rectangle at an eased value between two rectangles (R53 to R55). -/
def rectAt (e : Nat) (src dst : Rect) : Rect :=
  clampRect
    { x := evenDown (interpolate e src.x dst.x)
      y := interpolate e src.y dst.y
      w := evenDown (interpolate e src.w dst.w)
      h := interpolate e src.h dst.h }

/-- The rectangle a window shows at counter `k` of a move (R49 to R55). A move of length 0 is the placement of its
to-rectangle (R59). -/
def moveRect (k m : Nat) (easing : Easing) (ends : Ends) : Rect :=
  if m = 0 then ends.dst else rectAt (eased easing (progress k m)) ends.src ends.dst

/-- The horizontal resampler step of a window (R62). -/
def stepH (r : Rect) : Nat := 125829120 / r.w

/-- The vertical resampler step of a window (R62). -/
def stepV (r : Rect) : Nat := 70778880 / r.h

/-- 1 when the programme target is not the full frame, 0 otherwise (R28, R89). -/
def Template.p (t : Template) : Nat := if t.pgmTarget = fullFrame then 0 else 1

/-- 1 when the promo start or the promo target is not the full frame, 0 otherwise (R28, R89). -/
def Template.q (t : Template) : Nat := if t.prmStart = fullFrame ∧ t.prmTarget = fullFrame then 0 else 1

/-- The scaler need of a template (R89). -/
def Template.need (t : Template) : Nat := t.p + t.q

/-- The built-in fallback layout of slot 0 (R103); its label is FALLBACK. -/
def fallbackLayout : Template :=
  { label := some [0x46, 0x41, 0x4C, 0x4C, 0x42, 0x41, 0x43, 0x4B]
    pgmTarget := { x := 960, y := 0, w := 960, h := 540 }
    prmStart := fullFrame
    prmTarget := fullFrame
    layering := .programmeOnTop
    mIn := 25
    mOut := 25
    easeIn := .easeOut
    easeOut := .easeIn
    backing := black
    borderWidth := 0
    borderColour := black
    pgmAudio := 2
    prmAudio := 0 }

end Sys2Proof.Machine
end

