-- ==== Sys2Proof/Machine/Operands.lean ====
section
/-!
DEFINITION. The field checks of the commands: a carried operand becomes a value of the part, or fails the check
(R3, R68, R102, R121, R169, R171).
-/

namespace Sys2Proof.Machine

/-- A bank number 0 or 1 (R3, R70, R179). -/
def bankOf : Nat → Option BankId
  | 0 => some .bank0
  | 1 => some .bank1
  | _ => none

/-- A flag carried as 0 or 1 (R70, R121, R169). -/
def flagOf : Nat → Option Bool
  | 0 => some false
  | 1 => some true
  | _ => none

/-- An end action, 0 RESTORE or 1 TAKEOVER (R3, R181). -/
def endActionOf : Nat → Option EndAction
  | 0 => some .restore
  | 1 => some .takeover
  | _ => none

/-- The watch window an insert stores: 0 fails, 251 to 255 become 250 (R3). The outer absence is the failed check. -/
def watchOf : Option Nat → Option (Option Nat)
  | none => some none
  | some 0 => none
  | some w => some (some (min w Config.maxWatch))

/-- The entry an insert creates for a start frame and a lateness, if its fields pass the checks (R3, R5, R6, R8). -/
def entryOf (start : FrameValue) (late : Bool) (lateness : Nat) (f : InsertFields) : Option Entry :=
  if f.slot > 40 then none
  else
    match bankOf f.firstBank, endActionOf f.endAction, watchOf f.watch with
    | some bank, some action, some watch =>
      some
        { start := start, tag := f.tag, slot := f.slot, firstBank := bank, credit := f.credit, watch := watch,
          endAction := action, late := late, lateness := lateness }
    | _, _, _ => none

/-- An item source (R67, R182). -/
def sourceOf : Nat → Option Source
  | 0 => some .prm1
  | 1 => some .prm2
  | 2 => some .backing
  | _ => none

/-- The gate limit a GATED item runs with when none is sent (R67). -/
def defaultGateLimit (duration : Nat) : Nat := min (2 * duration) 65535

/-- The timing of an item (R67, R68). -/
def timingOf (timing duration : Nat) (gateLimit : Option Nat) : Option Timing :=
  match timing, gateLimit with
  | 0, none => some .fixed
  | 0, some _ => none
  | 1, none => some (.gated (defaultGateLimit duration))
  | 1, some g => if g < duration then none else some (.gated g)
  | _, _ => none

/-- An audio code is absent or 0 to 3 (R67, R68). -/
def codeOk : Option Nat → Bool
  | none => true
  | some c => decide (c ≤ 3)

/-- The item a carried item becomes, if it passes the check (R68). -/
def itemOf (r : RawItem) : Option Item :=
  if r.duration = 0 ∨ !codeOk r.pgmAudio ∨ !codeOk r.prmAudio then none
  else
    match sourceOf r.source, timingOf r.timing r.duration r.gateLimit with
    | some source, some timing =>
      some
        { tag := r.tag, source := source, duration := r.duration, timing := timing, pgmAudio := r.pgmAudio,
          prmAudio := r.prmAudio }
    | _, _ => none

/-- The items of a packet, all of which must pass (R68). -/
def itemsOf : List RawItem → Option (List Item)
  | [] => some []
  | r :: rest =>
    match itemOf r, itemsOf rest with
    | some i, some is => some (i :: is)
    | _, _ => none

/-- A label is absent, or at most 16 printable characters (R102). -/
def labelOk : Option (List Nat) → Bool
  | none => true
  | some l => decide (l.length ≤ 16) && l.all fun c => decide (0x20 ≤ c) && decide (c ≤ 0x7E)

/-- A rectangle of a template: within the frame, even x and w, w at least 192 and h at least 108 (R102). -/
def rectOk (r : Rect) : Bool :=
  decide (r.x + r.w ≤ 1920) && decide (r.y + r.h ≤ 1080) && decide (r.x % 2 = 0) && decide (r.w % 2 = 0) &&
    decide (192 ≤ r.w) && decide (108 ≤ r.h)

/-- A colour in its ranges (R101, R102). -/
def colourOk (c : Colour) : Bool :=
  decide (64 ≤ c.luma) && decide (c.luma ≤ 940) && decide (64 ≤ c.cb) && decide (c.cb ≤ 960) && decide (64 ≤ c.cr) &&
    decide (c.cr ≤ 960)

/-- A layering code (R101, R183). -/
def layeringOf : Nat → Option Layering
  | 0 => some .programmeOnTop
  | 1 => some .promoOnTop
  | _ => none

/-- An easing code (R101, R183). -/
def easingOf : Nat → Option Easing
  | 0 => some .linear
  | 1 => some .easeIn
  | 2 => some .easeOut
  | 3 => some .easeBoth
  | _ => none

/-- The ranges of R102 that need no code to be named. -/
def templateRangesOk (r : RawTemplate) : Bool :=
  labelOk r.label && rectOk r.pgmTarget && rectOk r.prmStart && rectOk r.prmTarget && decide (r.mIn ≤ 250) &&
    decide (r.mOut ≤ 250) && colourOk r.backing && colourOk r.borderColour && decide (r.borderWidth % 2 = 0) &&
    decide (r.borderWidth ≤ 16) && decide (r.pgmAudio ≤ 3) && decide (r.prmAudio ≤ 3)

/-- The template a carried record becomes, if it passes every test (R102). -/
def templateOf (r : RawTemplate) : Option Template :=
  if templateRangesOk r then
    match layeringOf r.layering, easingOf r.easeIn, easingOf r.easeOut with
    | some layering, some inCurve, some outCurve =>
      some
        { label := r.label, pgmTarget := r.pgmTarget, prmStart := r.prmStart, prmTarget := r.prmTarget,
          layering := layering, mIn := r.mIn, mOut := r.mOut, easeIn := inCurve, easeOut := outCurve,
          backing := r.backing, borderWidth := r.borderWidth, borderColour := r.borderColour, pgmAudio := r.pgmAudio,
          prmAudio := r.prmAudio }
    | _, _, _ => none
  else none

/-- A MODE code (R181). -/
def protectModeOf : Nat → Option ProtectMode
  | 0 => some .range
  | 1 => some .individual
  | _ => none

/-- A SIDE code (R181). -/
def sideOf : Nat → Option Side
  | 0 => some .low
  | 1 => some .high
  | _ => none

/-- A STORED_GUARD code (R181). -/
def storedGuardOf : Nat → Option StoredGuard
  | 0 => some .opened
  | 1 => some .guarded
  | _ => none

/-- The nonvolatile part a PROTECT_SET carries, if its fields are in range (R121, R128). -/
def protectionOf (r : RawProtection) : Option Protection :=
  if r.sizeCode > 6 then none
  else
    match protectModeOf r.mode, sideOf r.side, flagOf r.complement, storedGuardOf r.storedGuard with
    | some mode, some side, some complement, some guard =>
      some { mode := mode, side := side, sizeCode := r.sizeCode, complement := complement, storedGuard := guard }
    | _, _, _, _ => none

/-- The settings a SET_UNIT carries, if its fields pass (R169). -/
def addressingOf (u : RawUnit) : Option Addressing :=
  if u.primaryId = 0 ∨ u.primaryId ≥ 255 ∨ u.secondId ≥ 255 ∨ u.mask = 0 ∨ u.mask > 255 then none
  else
    match flagOf u.allCall, flagOf u.consume with
    | some allCall, some consume =>
      some
        { primaryId := BitVec.ofNat 8 u.primaryId, secondId := BitVec.ofNat 8 u.secondId,
          mask := BitVec.ofNat 8 u.mask, allCall := allCall, consume := consume }
    | _, _ => none

/-- A reset scope (R171, R172, R181). -/
def scopeOf : Nat → Option Scope
  | 0 => some .channel
  | 1 => some .part
  | _ => none

/-- The index of a stored slot number 1 to 32 (R104). -/
def storedIndex (slot : Nat) : Option SlotIndex :=
  if h : 1 ≤ slot ∧ slot ≤ 32 then some ⟨slot - 1, by omega⟩ else none

/-- The index of a volatile slot number 33 to 40 (R104). -/
def volatileIndex (slot : Nat) : Option (Fin 8) :=
  if h : 33 ≤ slot ∧ slot ≤ 40 then some ⟨slot - 33, by omega⟩ else none

end Sys2Proof.Machine
end

