-- ==== Sys2Proof/Machine/Ops.lean ====
section
/-!
DEFINITION. The operations the blocks share: comparing frame values, schedule order, the Scaler Pool and Arbiter
(chapter 5), the Template Library (chapter 6), the protected set and the guard (chapter 7), and the taking of a
command by a Control Parser (chapter 10).
-/

namespace Sys2Proof.Machine

/-! ### Frame values -/

/-- `a` is ahead of `b`: (a − b) modulo 2^32 lies in 1 to 2^31 − 1 (R150). -/
def ahead (a b : FrameValue) : Bool := decide (1 ≤ (a - b).toNat) && decide ((a - b).toNat ≤ 2147483647)

/-- The place of a frame value in the order of R4 and R91 against the SFC: values not ahead come first, the one
furthest behind foremost, then values ahead by their distance. It is the distance read as a signed number. -/
def orderKey (sfc v : FrameValue) : Int := (v - sfc).toInt

/-! ### Schedule order -/

/-- An entry put at its place among entries in schedule order (R4). -/
def insertEntry (sfc : FrameValue) (e : Entry) : List Entry → List Entry
  | [] => [e]
  | f :: rest =>
    if orderKey sfc e.start < orderKey sfc f.start then e :: f :: rest else f :: insertEntry sfc e rest

/-- Entries put in schedule order (R4). -/
def orderEntries (sfc : FrameValue) : List Entry → List Entry
  | [] => []
  | e :: rest => insertEntry sfc e (orderEntries sfc rest)

/-- The order of a channel's schedule against a new SFC (R4). -/
def ChannelState.reorder (sfc : FrameValue) (c : ChannelState) : ChannelState :=
  { c with schedule := { c.schedule with entries := orderEntries sfc c.schedule.entries } }

/-! ### The engine and its tally line -/

/-- The states in which Jx is asserted (R22). -/
def EngineState.tally : EngineState → Bool
  | .idle | .armed => false
  | .squeeze | .held | .release | .takeover | .promoFull => true

/-- The engine of a channel replaced; Jx changes with its state (R22). -/
def ChannelState.withEngine (c : ChannelState) (e : Engine) : ChannelState :=
  { c with engine := e, tally := e.state.tally }

/-- The active junction record changed by a function of it, where there is one. -/
def Engine.modRecord (e : Engine) (f : JunctionRecord → JunctionRecord) : Engine :=
  { e with record := e.record.map f }

/-- The active junction record of a channel changed by a function of it. -/
def State.modRecord (s : State) (ch : Channel) (f : JunctionRecord → JunctionRecord) : State :=
  s.modChan ch fun c => { c with engine := c.engine.modRecord f }

/-! ### The promo inputs -/

/-- The promo frames of the reference frame in progress: those judged already, or those now offered (R155). -/
def State.promoFrames (s : State) (offered : PromoFrames) : PromoFrames := s.aligned.getD offered

/-- The promo frames of the reference frame in progress judged, once for every channel (R155). -/
def State.judge (s : State) (offered : PromoFrames) : State := { s with aligned := some (s.promoFrames offered) }

/-- The inputs a channel reads at an event: its own PGM-x, and the promo frames judged for the frame (R155). -/
def State.inputs (s : State) (inp : FrameInputs) : FrameInputs := { inp with promo := s.promoFrames inp.promo }

/-! ### The Scaler Pool and Arbiter -/

/-- The scalers granted over the four records. -/
def Pool.held (p : Pool) : Nat :=
  p.records.a.granted + p.records.b.granted + p.records.c.granted + p.records.d.granted

/-- The number of free scalers (R88). -/
def Pool.free (p : Pool) : Nat := Config.poolSize - p.held

/-- The letters in order (R91). -/
def channelIndex : Channel → Nat
  | .a => 0
  | .b => 1
  | .c => 2
  | .d => 3

/-- Whether one channel's request stands before another's in the queue (R91). -/
def Pool.before (p : Pool) (sfc : FrameValue) (x y : Channel) : Bool :=
  let kx := orderKey sfc (p.records.get x).start
  let ky := orderKey sfc (p.records.get y).start
  decide (kx < ky) || (decide (kx = ky) && decide (channelIndex x < channelIndex y))

/-- A channel put at its place in the request queue (R91). -/
def Pool.place (p : Pool) (sfc : FrameValue) (ch : Channel) : List Channel → List Channel
  | [] => [ch]
  | y :: rest => if p.before sfc ch y then ch :: y :: rest else y :: p.place sfc ch rest

/-- The request queue in the order of R91 against an SFC. -/
def Pool.ordered (p : Pool) (sfc : FrameValue) : List Channel → List Channel
  | [] => []
  | ch :: rest => p.place sfc ch (p.ordered sfc rest)

/-- A request record replaced. -/
def Pool.setRecord (p : Pool) (ch : Channel) (r : Request) : Pool := { p with records := p.records.set ch r }

/-- A channel taken out of the request queue. -/
def Pool.leaveQueue (p : Pool) (ch : Channel) : Pool := { p with queue := p.queue.filter (· ≠ ch) }

/-- A waiting channel granted a number of scalers; its engine records the grant (R25, R92). -/
def State.grantTo (s : State) (ch : Channel) (n : Nat) : State :=
  let r := s.pool.records.get ch
  let pool := (s.pool.leaveQueue ch).setRecord ch { r with state := .granted, granted := n }
  { s with pool := pool }.modRecord ch ({ · with granted := n })

/-- The grant test repeated at most a number of times (R92). -/
def grantLoop : Nat → State → State
  | 0, s => s
  | n + 1, s =>
    match s.pool.queue with
    | [] => s
    | ch :: _ =>
      let need := (s.pool.records.get ch).requested
      if need ≤ s.pool.free then grantLoop n (s.grantTo ch need) else s

/-- The grant test on the queue in its order against the SFC: the head is granted in full while it fits (R91, R92). -/
def grantTest (s : State) : State :=
  let queue := s.pool.ordered s.ref.sfc s.pool.queue
  grantLoop queue.length { s with pool := { s.pool with queue := queue } }

/-- A request of an engine at arming: 0 is granted at once, 1 or 2 joins the queue and the grant test runs (R90). -/
def scalerRequest (ch : Channel) (requested : Nat) (start : FrameValue) (s : State) : State :=
  if requested = 0 then
    { s with
      pool := s.pool.setRecord ch { state := .granted, requested := 0, start := start, granted := 0 } }
  else
    let pool := s.pool.setRecord ch { state := .waiting, requested := requested, start := start, granted := 0 }
    grantTest { s with pool := { pool with queue := pool.queue ++ [ch] } }

/-- The start claim of a channel before the grant test that follows it, and the scalers it leaves the engine with
(R93). A record that is NONE, which no armed engine has, yields none. -/
def claimScalers (ch : Channel) (s : State) : State × Nat :=
  let r := s.pool.records.get ch
  match r.state with
  | .granted => (s, r.granted)
  | .waiting =>
    let g := min r.requested s.pool.free
    let r' := if g = 0 then Request.none else { r with state := .granted, granted := g }
    ({ s with pool := (s.pool.leaveQueue ch).setRecord ch r' }, g)
  | .none => (s, 0)

/-- A channel's claim on the pool given back: a waiting request leaves the queue, a grant returns to the free count,
the record becomes NONE, and the grant test runs (R95, R96). -/
def releaseClaim (ch : Channel) (s : State) : State :=
  grantTest { s with pool := (s.pool.leaveQueue ch).setRecord ch .none }

/-! ### The Template Library -/

/-- A stored slot. -/
def Library.storedSlot (l : Library) (i : SlotIndex) : StoredSlot := l.stored.get i

/-- A stored slot replaced. -/
def Library.setStored (l : Library) (i : SlotIndex) (v : StoredSlot) : Library :=
  { l with stored := l.stored.set i.val v i.isLt }

/-- A volatile slot replaced. -/
def Library.setVolatile (l : Library) (i : Fin 8) (v : Option Template) : Library :=
  { l with volatileSlots := l.volatileSlots.set i.val v i.isLt }

/-- A slot as READBACK reports it; a number above 40 names none (R105). -/
def Library.report (l : Library) (slot : Nat) : Option SlotReport :=
  if slot = 0 then some (.valid fallbackLayout)
  else
    match storedIndex slot, volatileIndex slot with
    | some i, _ =>
      match l.storedSlot i with
      | .blank => some .blank
      | .valid t => some (.valid t)
      | .invalid => some .invalid
      | .underOperation => some .underOperation
    | _, some j =>
      match l.volatileSlots.get j with
      | some t => some (.valid t)
      | none => some .blank
    | _, _ => none

/-- The template a slot holds: slot 0 the fallback layout, a VALID slot its own, any other none (R114). -/
def Library.content (l : Library) (slot : Nat) : Option Template :=
  match l.report slot with
  | some (.valid t) => some t
  | _ => none

/-- The stored slot of an operation (R104). -/
def Operation.slot : Operation → Option SlotIndex
  | .write i _ => some i
  | .erase i => some i
  | .protectSet _ => none

/-- The number of progress events of an operation (R104). -/
def Operation.length : Operation → Nat
  | .write _ _ => 6
  | .erase _ => 3
  | .protectSet _ => 2

/-- The template a WRITE in flight on a slot is writing (R105). -/
def Library.beingWritten (l : Library) (slot : Nat) : Option Template :=
  match l.operation with
  | some { op := .write i t, .. } => if i.val + 1 = slot then some t else none
  | _ => none

/-- The scaler need the library answers for a slot (R24, R105). -/
def Library.need (l : Library) (slot : Nat) : Nat :=
  match l.content slot, l.beingWritten slot with
  | some t, _ => t.need
  | none, some t => t.need
  | none, none => fallbackLayout.need

/-- A fetch served: its channel's record takes the slot's template, or the fallback layout with FALLBACK_USED
(R25, R114). -/
def serveFetch (f : Fetch) (s : State) : State :=
  let content := s.library.content f.slot
  s.modChan f.channel fun c =>
    { c with
      fetch := .served
      reporter := c.reporter.raiseIf content.isNone .fallbackUsed
      engine := c.engine.modRecord fun r =>
        { r with
          template := some (content.getD fallbackLayout)
          fallbackUsed := r.fallbackUsed || content.isNone } }

/-- A list of fetches served in order (R115). -/
def serveAll (fs : List Fetch) (s : State) : State := fs.foldl (fun s f => serveFetch f s) s

/-- Whether the operation in flight is on a slot. -/
def Library.operatesOn (l : Library) (slot : Nat) : Bool :=
  match l.operation with
  | some fl =>
    match fl.op.slot with
    | some i => decide (i.val + 1 = slot)
    | none => false
  | none => false

/-- The fetch state of a channel set. -/
def State.setFetch (s : State) (ch : Channel) (f : FetchState) : State := s.modChan ch ({ · with fetch := f })

/-- A fetch arriving from an engine: served at once, set aside or queued (R113). -/
def fetchArrival (ch : Channel) (slot : Nat) (s : State) : State :=
  let f : Fetch := { channel := ch, slot := slot }
  if s.library.operatesOn slot then
    { s with library := { s.library with setAside := s.library.setAside ++ [f] } }.setFetch ch .setAside
  else if s.library.operation.isNone ∧ s.library.fetchQueue = [] then serveFetch f s
  else { s with library := { s.library with fetchQueue := s.library.fetchQueue ++ [f] } }.setFetch ch .queued

/-- A channel's fetch taken out of the queue and the set-aside list; its fetch state becomes NONE (R116). -/
def withdrawFetch (ch : Channel) (s : State) : State :=
  { s with
    library :=
      { s.library with
        fetchQueue := s.library.fetchQueue.filter (·.channel ≠ ch)
        setAside := s.library.setAside.filter (·.channel ≠ ch) } }.setFetch ch .none

/-- The guard state a commit of a protection record leaves (R129). -/
def GuardState.afterCommit (g : GuardState) (p : Protection) : GuardState :=
  match g with
  | .frozen => .frozen
  | .opened | .guarded => p.storedGuard.toGuard

/-- The change an operation makes when it completes, with the operation in flight become none (R111, R129). -/
def applyOperation (op : Operation) (s : State) : State :=
  let l := { s.library with operation := none }
  match op with
  | .write i t => { s with library := { l.setStored i (.valid t) with storeFail := false } }
  | .erase i => { s with library := { l.setStored i .blank with storeFail := false } }
  | .protectSet p =>
    { s with
      library := l
      protection := { s.protection with record := p, guardState := s.protection.guardState.afterCommit p } }

/-- The completion of the operation in flight: its change, then every set-aside fetch served (R111, R115). -/
def completeOperation (op : Operation) (s : State) : State :=
  let s1 := applyOperation op s
  serveAll s1.library.setAside { s1 with library := { s1.library with setAside := [] } }

/-- The library's work at a library frame event: the head of the queue is served and the operation is suspended, or
the operation progresses (R111, R113, R118). -/
def libraryWork (s : State) : State :=
  match s.library.fetchQueue with
  | f :: rest =>
    serveFetch f
      { s with library := { s.library with fetchQueue := rest, suspended := s.library.operation.isSome } }
  | [] =>
    let s1 : State := { s with library := { s.library with suspended := false } }
    match s.library.operation with
    | none => s1
    | some fl =>
      if fl.progress + 1 ≥ fl.op.length then completeOperation fl.op s1
      else { s1 with library := { s1.library with operation := some { fl with progress := fl.progress + 1 } } }

/-- An operation accepted: it is in flight with progress 0, and its slot becomes UNDER_OPERATION (R107 to R109). -/
def startOperation (op : Operation) (s : State) : State :=
  let l := { s.library with operation := some { op := op, progress := 0 }, suspended := false }
  match op.slot with
  | some i => { s with library := l.setStored i .underOperation }
  | none => { s with library := l }

/-! ### Library Protection -/

/-- The number of slots of the run (R122). -/
def rangeLength (sizeCode : Nat) : Nat := if sizeCode = 0 then 0 else 2 ^ (sizeCode - 1)

/-- Whether a stored slot 1 to 32 lies in the run (R122). -/
def Protection.inRange (p : Protection) (slot : Nat) : Bool :=
  match p.side with
  | .low => decide (slot ≤ rangeLength p.sizeCode)
  | .high => decide (33 - rangeLength p.sizeCode ≤ slot)

/-- Whether a stored slot is in the protected set (R122, R123). -/
def LibraryProtection.protects (p : LibraryProtection) (i : SlotIndex) : Bool :=
  match p.record.mode with
  | .range => xor (p.record.inRange (i.val + 1)) p.record.complement
  | .individual => p.locks.get i

/-- The guard test: the refusal, or none where it passes (R124). -/
def LibraryProtection.guardTest (p : LibraryProtection) : Option ResultCode :=
  match p.guardState with
  | .opened => none
  | .guarded => if p.libguard then some .guarded else none
  | .frozen => some .frozen

/-! ### The taking of a command -/

/-- A change of one channel's Control Parser. -/
def State.modParser (s : State) (ch : Channel) (f : Parser → Parser) : State :=
  s.modChan ch fun c => { c with parser := f c.parser }

/-- A packet taken by the parser of a channel: the reset arm is cleared, the owning block acts and answers, and the
answer goes to the channel's result list (R161, R171, R174). -/
def take (ch : Channel) (kind : Nat) (m : Match) (body : State → State × ResultCode) (s : State) : State :=
  let (s', code) := body (s.modParser ch ({ · with arm := none }))
  s'.modReporter ch (·.append { kind := kind, code := code, how := m })

/-- A common command: the owning block acts where the channel has management enable, and the answer is NOT_MANAGER
otherwise (R167). -/
def ifManager (ch : Channel) (body : State → State × ResultCode) (s : State) : State × ResultCode :=
  if s.management.get ch then body s else (s, .notManager)

/-- A packet of a shape not allowed: answered BAD_COMMAND, the skip flag set (R165, R166). -/
def badCommand (ch : Channel) (kind : Nat) (m : Match) (s : State) : State :=
  take ch kind m (fun s => (s.modParser ch ({ · with skip := true }), .badCommand)) s

end Sys2Proof.Machine
end

