-- ==== Sys2Proof/Machine/Play.lean ====
section
/-!
DEFINITION. The Promo List (chapter 4): banks, the play position, the start of an item, its counters, what follows
its last frame, and the list's work at a channel frame event.
-/

namespace Sys2Proof.Machine

/-- The other bank. -/
def BankId.other : BankId → BankId
  | .bank0 => .bank1
  | .bank1 => .bank0

/-- A bank of a channel. -/
def PromoList.bank (p : PromoList) : BankId → Bank
  | .bank0 => p.bank0
  | .bank1 => p.bank1

/-- A bank of a channel replaced. -/
def PromoList.setBank (p : PromoList) (b : BankId) (v : Bank) : PromoList :=
  match b with
  | .bank0 => { p with bank0 := v }
  | .bank1 => { p with bank1 := v }

/-- The state of a bank changed, its items and chain flag kept. -/
def PromoList.setBankState (p : PromoList) (b : BankId) (st : BankState) : PromoList :=
  p.setBank b { p.bank b with state := st }

/-- The counters of an item as it starts (R78, R79). -/
def Cursor.starting (index : Nat) (i : Item) : Cursor :=
  { index := index, phase := .running, duration := i.duration,
    gate := match i.timing with
      | .fixed => none
      | .gated limit => some limit }

/-- The current item, where there is one. -/
def PromoList.current (p : PromoList) : Option Item :=
  match p.play.bank, p.play.cursor with
  | some b, some c => (p.bank b).items[c.index]?
  | _, _ => none

/-- An item of a bank become current: the play position takes it and its counters are loaded. -/
def PromoList.startItem (p : PromoList) (b : BankId) (index started : Nat) : PromoList :=
  { p with
    play :=
      { bank := some b, cursor := (p.bank b).items[index]?.map (Cursor.starting index), started := started } }

/-- Play begun with a bank that is READY: it becomes PLAYING and its first item starts (R77). -/
def PromoList.begin (p : PromoList) (b : BankId) : PromoList := (p.setBankState b .playing).startItem b 0 1

/-- What the Promo List tells at a channel frame event: whether an item started, whether the list was found
exhausted, whether BANK_UNDERRUN is to be set (R82 to R84). -/
structure ListReport where
  started : Bool
  exhausted : Bool
  underrun : Bool
  deriving DecidableEq, Repr

/-- Nothing to tell. -/
def ListReport.none : ListReport := { started := false, exhausted := false, underrun := false }

/-- Two reports of one event together. -/
def ListReport.and (x y : ListReport) : ListReport :=
  { started := x.started || y.started, exhausted := x.exhausted || y.exhausted, underrun := x.underrun || y.underrun }

/-- The cursor of the play position replaced. -/
def PromoList.setCursor (p : PromoList) (c : Cursor) : PromoList :=
  { p with play := { p.play with cursor := some c } }

/-- Items started counts to 62 and no further (R80). -/
def countStart (n : Nat) : Nat := min (n + 1) Config.maxItemsStarted

/-- The successor of a FINISHED item starts, with the bank swap where its bank has ended; a swap that finds the other
bank no longer READY exhausts the list (R80, R82). -/
def PromoList.successor (p : PromoList) : PromoList × ListReport :=
  match p.play.bank, p.play.cursor with
  | some b, some c =>
    if c.phase = .finished then
      if c.index + 1 < (p.bank b).items.length then
        (p.startItem b (c.index + 1) (countStart p.play.started), { ListReport.none with started := true })
      else if (p.bank b.other).state = .ready then
        (((p.setBankState b .spent).setBankState b.other .playing).startItem b.other 0 (countStart p.play.started),
          { ListReport.none with started := true })
      else (p.setCursor { c with phase := .exhausted }, { started := false, exhausted := true, underrun := true })
    else (p, .none)
  | _, _ => (p, .none)

/-- Whether a source is valid in the frame; BACKING is valid in every frame (R79). -/
def Source.valid (v : PromoValidity) : Source → Bool
  | .prm1 => v.prm1
  | .prm2 => v.prm2
  | .backing => true

/-- The counters of a running item after one frame: a FIXED item's duration counter falls, a GATED item's gate
counter falls and its duration counter only in a frame with a valid source (R78, R79). -/
def Cursor.tick (c : Cursor) (sourceValid : Bool) : Cursor :=
  match c.gate with
  | none => { c with duration := c.duration - 1 }
  | some g => { c with gate := some (g - 1), duration := if sourceValid then c.duration - 1 else c.duration }

/-- The item has shown its last frame: its duration counter or its gate counter stands at 0 (R78, R79). -/
def Cursor.done (c : Cursor) : Bool := decide (c.duration = 0) || decide (c.gate = some 0)

/-- What follows the last frame of an item: FINISHED where it has a successor, EXHAUSTED where it has none, with
BANK_UNDERRUN where a chained bank finds the other bank not READY (R82, R83). -/
def PromoList.finish (p : PromoList) (b : BankId) (c : Cursor) : PromoList × ListReport :=
  let bank := p.bank b
  if c.index + 1 < bank.items.length then (p.setCursor { c with phase := .finished }, .none)
  else if bank.chain then
    if (p.bank b.other).state = .ready then (p.setCursor { c with phase := .finished }, .none)
    else (p.setCursor { c with phase := .exhausted }, { started := false, exhausted := true, underrun := true })
  else (p.setCursor { c with phase := .exhausted }, { started := false, exhausted := true, underrun := false })

/-- The count of the current item at an event whose state advances items: a running item counts, and finishes when a
counter reaches 0 (R78, R79, R82). -/
def PromoList.count (v : PromoValidity) (p : PromoList) : PromoList × ListReport :=
  match p.play.bank, p.play.cursor, p.current with
  | some b, some c, some i =>
    if c.phase = .running then
      let c' := c.tick (i.source.valid v)
      if c'.done then p.finish b c' else (p.setCursor c', .none)
    else (p, .none)
  | _, _, _ => (p, .none)

/-- The count of the current item at an event taken in RELEASE: the counters fall until one stands at 0 and stay
there, and the phase is kept (R81). -/
def PromoList.countReleasing (v : PromoValidity) (p : PromoList) : PromoList :=
  match p.play.cursor, p.current with
  | some c, some i => if c.phase = .running ∧ ¬ c.done then p.setCursor (c.tick (i.source.valid v)) else p
  | _, _ => p

/-- The states in which a FINISHED item's successor starts (R80, R81). -/
def EngineState.advancesItems : EngineState → Bool
  | .squeeze | .held | .takeover | .promoFull => true
  | .idle | .armed | .release => false

/-- The Promo List's work at a channel frame event the engine takes in a state: the successor of a FINISHED item
starts where the frame carries a promo window, and the current item counts (R80, R81). -/
def PromoList.work (taken : EngineState) (carriesPromo : Bool) (v : PromoValidity) (p : PromoList) :
    PromoList × ListReport :=
  if taken.advancesItems then
    let (p1, r1) := if carriesPromo then p.successor else (p, .none)
    let (p2, r2) := p1.count v
    (p2, r1.and r2)
  else if taken = .release then (p.countReleasing v, .none)
  else (p, .none)

/-- Whether items remain (R84). -/
def PromoList.itemsRemain (p : PromoList) : Bool :=
  match p.play.bank, p.play.cursor with
  | some b, some c =>
    match c.phase with
    | .running => true
    | .finished =>
      decide (c.index + 1 < (p.bank b).items.length) || decide ((p.bank b.other).state = .ready)
    | .exhausted => false
  | _, _ => false

/-- A bank's state at the junction end: PLAYING becomes SPENT (R85). -/
def Bank.afterJunction (b : Bank) : Bank := if b.state = .playing then { b with state := .spent } else b

/-- The lists at a junction end other than ABORT (R85). -/
def PromoList.endPlay (p : PromoList) : PromoList :=
  { bank0 := p.bank0.afterJunction, bank1 := p.bank1.afterJunction, play := .none }

/-- What the Promo List found put into the channel: the list itself, the rise of items played (R46, R80), and
BANK_UNDERRUN. -/
def ChannelState.withList (c : ChannelState) (p : PromoList) (r : ListReport) : ChannelState :=
  { c with
    promo := p
    engine :=
      if r.started then c.engine.modRecord fun j => { j with itemsPlayed := countStart j.itemsPlayed } else c.engine
    reporter := c.reporter.raiseIf r.underrun .bankUnderrun }

/-- The marker after an exhaustion found at an event that neither took an end cause nor ended the junction: LIST_END
unless it already holds END (R37). -/
def Engine.markListEnd (e : Engine) : Engine :=
  { e with marker := match e.marker with
    | some .endCommand => some .endCommand
    | _ => some .listEnd }

/-- LIST_END marked when the list was found exhausted (R37). -/
def ChannelState.markIf (c : ChannelState) (exhausted : Bool) : ChannelState :=
  if exhausted then { c with engine := c.engine.markListEnd } else c

end Sys2Proof.Machine
end

