-- ==== Sys2Proof/Machine/Junction.lean ====
section
/-!
DEFINITION. The Junction Engine and the Junction Schedule together (chapters 1 and 2): the arm test, the miss sweep,
the junction end, the start event, the engine's work at a channel frame event, and the notices of a SET_TIME.
-/

namespace Sys2Proof.Machine

/-! ### Arming -/

/-- An entry is near enough to arm: due, or ahead by at most the arm lead (R14). -/
def nearEnough (start sfc : FrameValue) : Bool :=
  !ahead start sfc || decide ((start - sfc).toNat ≤ Config.armLead)

/-- The active junction record of an entry at arming (R15, R23). -/
def JunctionRecord.opening (e : Entry) (need : Nat) : JunctionRecord :=
  { start := e.start, tag := e.tag, slot := e.slot, firstBank := e.firstBank, credit := e.credit, watch := e.watch,
    endAction := e.endAction, lateness := if e.late then e.lateness else 0, requested := need, granted := 0,
    template := none, fallbackUsed := false, itemsPlayed := 0, endCause := none, latenessTaken := 0 }

/-- The first entry of a schedule arms: it leaves the schedule, the engine enters ARMED with its record, and a fetch
and a scaler request are sent (R15, R23, R24). -/
def armEntry (ch : Channel) (e : Entry) (rest : List Entry) (s : State) : State :=
  let need := s.library.need e.slot
  let s1 := s.modChan ch fun c =>
    { c.withEngine { c.engine with state := .armed, record := some (.opening e need) } with
      schedule := { c.schedule with entries := rest } }
  scalerRequest ch need e.start (fetchArrival ch e.slot s1)

/-- The arm test (R14). -/
def armTest (ch : Channel) (s : State) : State :=
  let c := s.chan ch
  match c.engine.state, c.schedule.entries with
  | .idle, e :: rest => if nearEnough e.start s.ref.sfc then armEntry ch e rest s else s
  | _, _ => s

/-! ### Misses -/

/-- The record and the flag of one missed entry (R16, R17). -/
def missOne (ch : Channel) (o : JunctionOutcome) (s : State) (e : Entry) : State :=
  s.modReporter ch fun r => (r.record (missRecord e o)).raise .missed

/-- The entries of a schedule that fail a test are missed in schedule order; the others stay (R16, R17). -/
def missUnless (ch : Channel) (o : JunctionOutcome) (keep : Entry → Bool) (s : State) : State :=
  let es := (s.chan ch).schedule.entries
  let s1 := s.modChan ch fun c => { c with schedule := { c.schedule with entries := es.filter keep } }
  (es.filter fun e => !keep e).foldl (missOne ch o) s1

/-- The miss sweep: every entry whose start is not ahead of the SFC is missed (R16). -/
def missSweep (ch : Channel) (s : State) : State :=
  missUnless ch .missedBusy (fun e => ahead e.start s.ref.sfc) s

/-! ### Junction end -/

/-- The last-junction record the engine writes (R46). -/
def JunctionRecord.last (r : JunctionRecord) (o : JunctionOutcome) : LastJunction :=
  { tag := r.tag, start := r.start, outcome := o, endCause := r.endCause, itemsPlayed := r.itemsPlayed,
    fallbackUsed := r.fallbackUsed, scalersGranted := r.granted, latenessTaken := r.latenessTaken }

/-- The promo list of a channel at a junction end other than ABORT (R45, R85). -/
def ChannelState.spendBank (c : ChannelState) : ChannelState := { c with promo := c.promo.endPlay }

/-- The promo list and the load context of a channel at ABORT: both banks EMPTY, the context closed (R44, R85). -/
def ChannelState.emptyBanks (c : ChannelState) : ChannelState :=
  { c with promo := .atReset, parser := { c.parser with context := none } }

/-- The channel's blocks after a junction end, before the arm test: the record written, the engine and the composer's
settings as in IDLE, Jx deasserted, the lists as the end leaves them (R45, R134). -/
def ChannelState.afterEnd (c : ChannelState) (lists : ChannelState → ChannelState) (l : LastJunction) :
    ChannelState :=
  lists
    { c.withEngine .idle with
      composer := { c.composer with look := .outside }
      reporter := c.reporter.record l }

/-- A junction ends: the claim is given back, a fetch leaves the library, the record is written and the engine
returns to IDLE, then the arm test runs (R45). -/
def endWith (ch : Channel) (o : JunctionOutcome) (lists : ChannelState → ChannelState) (s : State) : State :=
  match (s.chan ch).engine.record with
  | none => s
  | some r =>
    let s1 := withdrawFetch ch (releaseClaim ch s)
    armTest ch (s1.modChan ch (·.afterEnd lists (r.last o)))

/-- A junction end other than ABORT: the PLAYING bank becomes SPENT (R45, R85). -/
def junctionEnd (ch : Channel) (o : JunctionOutcome) (s : State) : State := endWith ch o ChannelState.spendBank s

/-! ### The start event -/

/-- How the engine's work at an event leaves the junction: it goes on, it is cut to passthrough at this event, or it
ends with the frame built at this event (R41, R45). -/
inductive FrameEnd
  | goes
  | cut (o : JunctionOutcome)
  | ends (o : JunctionOutcome)
  deriving DecidableEq, Repr

/-- The template in use (R27). -/
def Engine.template (e : Engine) : Template := (e.record.bind (·.template)).getD fallbackLayout

/-- The settings of a template the engine hands to the composer (R134). -/
def Look.ofTemplate (t : Template) : Look :=
  { layering := some t.layering, backing := t.backing, borderWidth := t.borderWidth, borderColour := t.borderColour,
    codes := some { pgm := t.pgmAudio, prm := t.prmAudio } }

/-- The channel with the settings of its template in use handed to its composer (R27, R134). -/
def ChannelState.takeLook (c : ChannelState) : ChannelState :=
  { c with composer := { c.composer with look := .ofTemplate c.engine.template } }

/-- The fallback layout put in place of a template still AWAITED, with FALLBACK_USED unless the record names slot 0
(R27). -/
def ChannelState.fallBack (c : ChannelState) (slot : Nat) : ChannelState :=
  { c with
    engine := c.engine.modRecord fun r =>
      { r with template := some fallbackLayout, fallbackUsed := r.fallbackUsed || decide (slot ≠ 0) }
    reporter := c.reporter.raiseIf (decide (slot ≠ 0)) .fallbackUsed }

/-- The template step of the start event (R27). -/
def templateStep (ch : Channel) (s : State) : State :=
  match (s.chan ch).engine.record with
  | some { template := none, slot := slot, .. } =>
    (withdrawFetch ch s).modChan ch fun c => (c.fallBack slot).takeLook
  | _ => s.modChan ch (·.takeLook)

/-- The scaler assignment and the degraded mark of a junction that was not missed (R28, R60). -/
def ChannelState.assignScalers (c : ChannelState) (g : Nat) : ChannelState :=
  let t := c.engine.template
  let degraded := decide (g < t.p + t.q)
  { c with
    engine :=
      { c.engine with
        degraded := degraded
        pgmScaled := decide (t.p = 1)
        promoScaled := decide (t.q = 1) && !degraded }
    reporter := c.reporter.raiseIf degraded .scalerShort }

/-- The bank step (R29, R77). -/
def ChannelState.bankStep (c : ChannelState) (b : BankId) : ChannelState :=
  if (c.promo.bank b).state = .ready then
    { c with promo := c.promo.begin b, engine := c.engine.modRecord ({ · with itemsPlayed := 1 }) }
  else { c with reporter := c.reporter.raise .noPromos }

/-- The promo start rectangle of the junction, the full frame when degraded (R28, R61). -/
def Engine.promoStart (e : Engine) : Rect := if e.degraded then fullFrame else e.template.prmStart

/-- The promo target of the junction, the full frame when degraded (R28, R61). -/
def Engine.promoTarget (e : Engine) : Rect := if e.degraded then fullFrame else e.template.prmTarget

/-- The rectangles for the present counter of the move in progress become the current rectangles (R49). -/
def Engine.showMove (e : Engine) : Engine :=
  match e.move with
  | none => e
  | some mv =>
    { e with
      pgmRect := mv.pgm.map (moveRect e.k mv.length mv.easing)
      promoRect := some (moveRect e.k mv.length mv.easing mv.promo) }

/-- The engine enters HELD with the targets shown and the watch counter loaded; an empty list counts as exhausted at
this event (R30, R32, R34, R37). -/
def Engine.enterHeld (e : Engine) (emptyList : Bool) : Engine :=
  let e1 :=
    { e with
      state := .held, k := 0, m := 0, move := none, watch := e.record.bind (·.watch),
      pgmRect := some e.template.pgmTarget, promoRect := some e.promoTarget }
  if emptyList then e1.markListEnd else e1

/-- The counter and state step (R30, R57). -/
def Engine.counterStep (e : Engine) (emptyList : Bool) : Engine :=
  let t := e.template
  let k0 := min ((e.record.map (·.lateness)).getD 0) t.mIn
  let credit := (e.record.map (·.credit)).getD 0
  let e1 :=
    { e.modRecord ({ · with latenessTaken := k0 }) with credit := if credit = 0 then none else some credit }
  if k0 < t.mIn then
    Engine.showMove
      { e1 with
        state := .squeeze, k := k0, m := t.mIn
        move := some
          { pgm := some { src := fullFrame, dst := t.pgmTarget }
            promo := { src := e1.promoStart, dst := e1.promoTarget }
            length := t.mIn, easing := t.easeIn } }
  else e1.enterHeld emptyList

/-- The bank step and the counter and state step of a junction that was not missed (R29, R30). -/
def ChannelState.startJunction (c : ChannelState) (b : BankId) : ChannelState :=
  let c1 := c.bankStep b
  c1.withEngine (c1.engine.counterStep c1.promo.play.bank.isNone)

/-- The start event: the template, scaler, bank and counter steps; a junction with no scaler where one is needed is
cut as MISSED_NO_SCALER (R26 to R30). -/
def startEvent (ch : Channel) (s : State) : State × FrameEnd :=
  let (s1, g) := claimScalers ch (templateStep ch s)
  let s2 := (grantTest s1).modRecord ch ({ · with granted := g })
  match (s2.chan ch).engine.record with
  | none => (s2, .goes)
  | some r =>
    if g = 0 ∧ (r.requested ≠ 0 ∨ (s2.chan ch).engine.template.p = 1) then
      (s2.raise ch .missed, .cut .missedNoScaler)
    else (s2.modChan ch fun c => (c.assignScalers g).startJunction r.firstBank, .goes)

/-! ### The engine's work at a channel frame event -/

/-- A running counter after one event: it falls by one, and stops when it reaches 0 (R33, R34). -/
def fallen : Option Nat → Option Nat
  | none => none
  | some n => if n ≤ 1 then none else some (n - 1)

/-- Whether a running counter reaches 0 at this event (R33, R34). -/
def expires : Option Nat → Bool
  | none => false
  | some n => decide (n ≤ 1)

/-- The end cause an event in SQUEEZE or HELD takes, the first present in the order END, CREDIT_TIMER, WATCH,
LIST_END (R38). -/
def Engine.causeAt (e : Engine) : Option EndCause :=
  if e.marker = some .endCommand then some .endCommand
  else if expires e.credit then some .creditTimer
  else if e.state = .held ∧ expires e.watch then some .watch
  else if e.marker = some .listEnd then some .listEnd
  else none

/-- An end cause taken: it is recorded, the marker is cleared and the counters stop (R38). -/
def Engine.takeCause (e : Engine) (c : EndCause) : Engine :=
  { e.modRecord ({ · with endCause := some c }) with credit := none, watch := none, marker := none }

/-- Whether a cause leads to a takeover (R39). -/
def Engine.takesOver (e : Engine) (c : EndCause) (itemsRemain : Bool) : Bool :=
  decide (c ≠ .listEnd) && decide (e.record.map (·.endAction) = some .takeover) && itemsRemain

/-- A RELEASE move begins from the current rectangles to the start-of-junction positions (R39, R40, R58). -/
def Engine.beginRelease (e : Engine) (length : Nat) : Engine :=
  Engine.showMove
    { e with
      state := .release, k := 0, m := length
      move := some
        { pgm := some { src := e.pgmRect.getD fullFrame, dst := fullFrame }
          promo := { src := e.promoRect.getD fullFrame, dst := e.promoStart }
          length := length, easing := e.template.easeOut } }

/-- The engine enters PROMO_FULL with the promo window at the full frame (R39, R42). -/
def Engine.enterPromoFull (e : Engine) : Engine :=
  { e with state := .promoFull, k := 0, m := 0, move := none, pgmRect := none, promoRect := some fullFrame }

/-- A takeover begins: the programme window is removed and the promo window moves to the full frame, or is placed
there at once with M_out 0 (R39, R59). -/
def Engine.beginTakeover (e : Engine) : Engine :=
  if e.template.mOut = 0 then e.enterPromoFull
  else
    Engine.showMove
      { e with
        state := .takeover, k := 0, m := e.template.mOut
        move := some
          { pgm := none, promo := { src := e.promoRect.getD fullFrame, dst := fullFrame },
            length := e.template.mOut, easing := e.template.easeOut } }

/-- What the engine's work at an event leaves: the engine, how the junction goes on, whether an end cause was
taken. -/
structure EngineResult where
  engine : Engine
  ending : FrameEnd
  tookCause : Bool
  deriving DecidableEq, Repr

/-- The end action of a cause in SQUEEZE or HELD; a restore of length 0 is a cut to passthrough (R39, R40). -/
def Engine.act (e : Engine) (c : EndCause) (itemsRemain : Bool) : EngineResult :=
  let length := if e.state = .squeeze then e.k else e.template.mOut
  let e1 := e.takeCause c
  if e.takesOver c itemsRemain then { engine := e1.beginTakeover, ending := .goes, tookCause := true }
  else if length = 0 then { engine := e1, ending := .cut .completedRestore, tookCause := true }
  else { engine := e1.beginRelease length, ending := .goes, tookCause := true }

/-- The counters of an event in SQUEEZE or HELD that takes no cause (R33 to R35). -/
def Engine.counted (e : Engine) : Engine :=
  { e with credit := fallen e.credit, watch := if e.state = .held then fallen e.watch else e.watch }

/-- The move counter advanced by one, and the rectangles for it shown (R31, R49). -/
def Engine.advance (e : Engine) : Engine := Engine.showMove { e with k := e.k + 1 }

/-- An event in SQUEEZE with no cause: k advances, and at M_in the engine enters HELD (R32). -/
def Engine.squeezeOn (e : Engine) (emptyList : Bool) : Engine :=
  let e1 := e.counted.advance
  if e1.m ≤ e1.k then e1.enterHeld emptyList else e1

/-- The engine's work at a channel frame event in every state but ARMED, where the start event takes its place
(R32, R35, R41 to R43). -/
def Engine.work (e : Engine) (itemsRemain emptyList : Bool) : EngineResult :=
  let on (e' : Engine) : EngineResult := { engine := e', ending := .goes, tookCause := false }
  match e.state with
  | .idle | .armed => on e
  | .squeeze =>
    match e.causeAt with
    | some c => e.act c itemsRemain
    | none => on (e.squeezeOn emptyList)
  | .held =>
    match e.causeAt with
    | some c => e.act c itemsRemain
    | none => on e.counted
  | .release =>
    let e1 := e.advance
    if e1.m ≤ e1.k then { engine := e1, ending := .ends .completedRestore, tookCause := false } else on e1
  | .takeover =>
    if e.marker = some .listEnd then { engine := e, ending := .cut .completedTakeover, tookCause := false }
    else
      let e1 := e.advance
      if e1.m ≤ e1.k then on e1.enterPromoFull else on e1
  | .promoFull =>
    if e.marker.isSome then { engine := e, ending := .cut .completedTakeover, tookCause := false } else on e

/-- The list of a running junction is empty: it runs with NO_PROMOS (R29, R77). -/
def ChannelState.emptyList (c : ChannelState) : Bool := c.promo.play.bank.isNone

/-- Whether a channel's start event is due: ARMED, and the start frame not ahead of the SFC (R26). -/
def startDue (ch : Channel) (s : State) : Bool :=
  match (s.chan ch).engine.state, (s.chan ch).engine.record with
  | .armed, some r => !ahead r.start s.ref.sfc
  | _, _ => false

/-- A junction ended as the engine's work says (R45). -/
def finishEnd (ch : Channel) (fe : FrameEnd) (s : State) : State :=
  match fe with
  | .goes => s
  | .cut o => junctionEnd ch o s
  | .ends o => junctionEnd ch o s

/-- The engine's own work at a channel frame event of its channel, with the items remaining judged on the list as it
stands (R25, R32, R35, R41 to R43). -/
def engineWork (ch : Channel) (s : State) : State :=
  let c := s.chan ch
  if c.engine.state = .armed then
    if startDue ch s then
      let (s1, fe) := startEvent ch s
      finishEnd ch fe s1
    else s
  else
    let r := c.engine.work c.promo.itemsRemain c.emptyList
    finishEnd ch r.ending (s.modChan ch (·.withEngine r.engine))

/-! ### Time jumps -/

/-- The schedule's side of a time-jump notice, the SFC being the new one: entries neither ahead nor equal are
missed, TIME_JUMP is set, the rest are reordered without lateness (R17 steps 1 to 3). -/
def jumpSchedule (ch : Channel) (s : State) : State :=
  let v := s.ref.sfc
  let s1 := missUnless ch .missedTimeJump (fun e => ahead e.start v || decide (e.start = v)) s
  (s1.raise ch .timeJump).modChan ch fun c =>
    { c with
      schedule :=
        { c.schedule with
          entries := orderEntries v (c.schedule.entries.map ({ · with late := false, lateness := 0 })) } }

/-- The engine's side of a time-jump notice: an armed junction is no longer late (R18). -/
def jumpEngine (ch : Channel) (s : State) : State :=
  s.modChan ch fun c =>
    if c.engine.state = .armed then { c with engine := c.engine.modRecord ({ · with lateness := 0 }) } else c

/-- The notices of one SET_TIME to one channel (R17, R18). -/
def jumpChannel (s : State) (ch : Channel) : State := jumpEngine ch (armTest ch (jumpSchedule ch s))

end Sys2Proof.Machine
end

