-- ==== Sys2Proof/Machine/BankCommands.lean ====
section
/-!
DEFINITION. The loading of banks (chapter 4): OPEN_BANK, ITEMS, CANCEL_LOAD and the load timeout.
-/

namespace Sys2Proof.Machine

/-- The bank of a load context emptied and the context closed (R75, R76). -/
def ChannelState.dropLoad (c : ChannelState) (x : LoadContext) : ChannelState :=
  { c with promo := c.promo.setBank x.bank .empty, parser := { c.parser with context := none } }

/-- A bank opened: the context on the other bank, if any, is dropped, the bank becomes LOADING and the load context
opens on it (R70, R71). -/
def ChannelState.openLoad (c : ChannelState) (b : BankId) (count : Nat) (chain : Bool) : ChannelState :=
  let promo :=
    match c.parser.context with
    | some x => if x.bank = b then c.promo else c.promo.setBank x.bank .empty
    | none => c.promo
  { c with
    promo := promo.setBank b { state := .loading, items := [], chain := chain }
    parser :=
      { c.parser with context := some { bank := b, remaining := count, countdown := Config.loadWindow } } }

/-- OPEN_BANK at the promo list (R70). -/
def openBankBody (ch : Channel) (bank count chain : Nat) (s : State) : State × ResultCode :=
  match bankOf bank, flagOf chain with
  | some b, some f =>
    if count < 1 ∨ 31 < count then (s, .badCount)
    else if ((s.chan ch).promo.bank b).state = .playing then (s, .busy)
    else (s.modChan ch (·.openLoad b count f), .ok)
  | _, _ => (s, .badField)

/-- Items appended to the bank of the open context; the packet that brings the remaining count to 0 seals the bank
(R72, R74). -/
def ChannelState.appendItems (c : ChannelState) (x : LoadContext) (its : List Item) : ChannelState :=
  let bank := c.promo.bank x.bank
  let items := bank.items ++ its
  let remaining := x.remaining - its.length
  if remaining = 0 then
    { c with
      promo := c.promo.setBank x.bank { bank with items := items, state := .ready }
      parser := { c.parser with context := none } }
  else
    { c with
      promo := c.promo.setBank x.bank { bank with items := items }
      parser :=
        { c.parser with context := some { x with remaining := remaining, countdown := Config.loadWindow } } }

/-- ITEMS at the promo list (R72 to R74). -/
def itemsBody (ch : Channel) (raw : List RawItem) (s : State) : State × ResultCode :=
  match (s.chan ch).parser.context with
  | none => (s, .noContext)
  | some x =>
    if x.remaining < raw.length then (s, .badCount)
    else
      match itemsOf raw with
      | none => (s, .badField)
      | some its => (s.modChan ch (·.appendItems x its), if raw.length = x.remaining then .sealed else .ok)

/-- CANCEL_LOAD at the promo list (R75). -/
def cancelLoadBody (ch : Channel) (s : State) : State × ResultCode :=
  match (s.chan ch).parser.context with
  | none => (s, .noContext)
  | some x => (s.modChan ch (·.dropLoad x), .ok)

/-- The load context at a channel frame event: its countdown falls by one, and at 0 the load times out (R76). -/
def ChannelState.countLoad (c : ChannelState) : ChannelState :=
  match c.parser.context with
  | none => c
  | some x =>
    if x.countdown ≤ 1 then { c.dropLoad x with reporter := c.reporter.raise .loadTimeout }
    else { c with parser := { c.parser with context := some { x with countdown := x.countdown - 1 } } }

/-- The load context's own work at a channel frame event (R76). -/
def loadWork (ch : Channel) (s : State) : State := s.modChan ch (·.countLoad)

/-- OPEN_BANK taken by a parser. -/
def takeOpenBank (ch : Channel) (m : Match) (bank count chain : Nat) (s : State) : State :=
  take ch 0x09 m (openBankBody ch bank count chain) s

/-- ITEMS taken by a parser; a count of items outside 1 to 8 is a malformed command (R73, R165). -/
def takeItems (ch : Channel) (m : Match) (raw : List RawItem) (s : State) : State :=
  if raw.length < 1 ∨ 8 < raw.length then badCommand ch 0x0A m s else take ch 0x0A m (itemsBody ch raw) s

/-- CANCEL_LOAD taken by a parser. -/
def takeCancelLoad (ch : Channel) (m : Match) (s : State) : State := take ch 0x0B m (cancelLoadBody ch) s

/-- OPEN_BANK (R70). -/
def execOpenBank (ch : Channel) (m : Match) (bank count chain : Nat) (s : State) :
    Host.Outcome State Fault Refusal :=
  .next (takeOpenBank ch m bank count chain s)

/-- ITEMS (R72). -/
def execItems (ch : Channel) (m : Match) (its : List RawItem) (s : State) : Host.Outcome State Fault Refusal :=
  .next (takeItems ch m its s)

/-- CANCEL_LOAD (R75). -/
def execCancelLoad (ch : Channel) (m : Match) (s : State) : Host.Outcome State Fault Refusal :=
  .next (takeCancelLoad ch m s)

/-- LOAD_TIMEOUT: the load context's work at an event that brings its countdown to 0 (R76; log entry 2). -/
def execLoadTimeout (ch : Channel) (s : State) : Host.Outcome State Fault Refusal :=
  .next
    (match (s.chan ch).parser.context with
    | some x => if x.countdown ≤ 1 then loadWork ch s else s
    | none => s)

end Sys2Proof.Machine
end

