-- ==== Sys2Proof/Machine/EngineCommands.lean ====
section
/-!
DEFINITION. The commands of the Junction Engine (chapter 2): END, EXTEND and ABORT.
-/

namespace Sys2Proof.Machine

/-- END at the engine: in SQUEEZE, HELD and PROMO_FULL the marker becomes END (R36). -/
def endBody (ch : Channel) (s : State) : State × ResultCode :=
  match (s.chan ch).engine.state with
  | .squeeze | .held | .promoFull =>
    (s.modChan ch fun c => { c with engine := { c.engine with marker := some .endCommand } }, .ok)
  | .idle | .armed | .release | .takeover => (s, .wrongState)

/-- EXTEND at the engine: in HELD a watch counter is reloaded with the watch window (R34). -/
def extendBody (ch : Channel) (s : State) : State × ResultCode :=
  match (s.chan ch).engine.state with
  | .held =>
    (s.modChan ch fun c =>
      match c.engine.record.bind (·.watch) with
      | some w => { c with engine := { c.engine with watch := some w } }
      | none => c, .ok)
  | .idle | .armed | .squeeze | .release | .takeover | .promoFull => (s, .wrongState)

/-- A channel about to be aborted: ABORT replaces the end cause, the counters stop and the marker is cleared (R44
steps 5 and 6). -/
def ChannelState.aborting (c : ChannelState) : ChannelState := { c with engine := c.engine.takeCause .abort }

/-- ABORT at the engine: the junction is cut, both banks become EMPTY, the record is written and the
arm test runs (R44). The next frame is built from the state so left, which an entry armed at once can turn into the first
frame of its own junction (log entry 34). -/
def abortBody (ch : Channel) (s : State) : State × ResultCode :=
  if (s.chan ch).engine.state = .idle then (s, .wrongState)
  else (endWith ch .aborted ChannelState.emptyBanks (s.modChan ch (·.aborting)), .ok)

/-- END taken by a parser. -/
def takeEnd (ch : Channel) (m : Match) (s : State) : State := take ch 0x06 m (endBody ch) s

/-- EXTEND taken by a parser. -/
def takeExtend (ch : Channel) (m : Match) (s : State) : State := take ch 0x07 m (extendBody ch) s

/-- ABORT taken by a parser. -/
def takeAbort (ch : Channel) (m : Match) (s : State) : State := take ch 0x08 m (abortBody ch) s

/-- END (R36). -/
def execEnd (ch : Channel) (m : Match) (s : State) : Host.Outcome State Fault Refusal := .next (takeEnd ch m s)

/-- EXTEND (R34). -/
def execExtend (ch : Channel) (m : Match) (s : State) : Host.Outcome State Fault Refusal := .next (takeExtend ch m s)

/-- ABORT (R44). -/
def execAbort (ch : Channel) (m : Match) (s : State) : Host.Outcome State Fault Refusal := .next (takeAbort ch m s)

end Sys2Proof.Machine
end

