-- ==== Sys2Proof/Machine/LibraryCommands.lean ====
section
/-!
DEFINITION. The commands and events of the Template Library (chapter 6): TEMPLATE_WRITE, TEMPLATE_ERASE,
LIBRARY_FRAME_EVENT, OPERATION_COMPLETE and FETCH_SERVED.
-/

namespace Sys2Proof.Machine

/-- The tests of a store or erase of a stored slot, BUSY then PROTECTED with STORE_FAIL, and its acceptance (R106 to
R108, R110, R112). -/
def storeOrErase (i : SlotIndex) (op : Operation) (s : State) : State × ResultCode :=
  if s.library.operation.isSome then (s, .busy)
  else if s.protection.protects i then
    ({ s with library := { s.library with storeFail := true } }, .protectedSlot)
  else (startOperation op s, .ok)

/-- A volatile slot written or blanked at once (R106, R108). -/
def changeVolatile (j : Fin 8) (v : Option Template) (s : State) : State × ResultCode :=
  ({ s with library := s.library.setVolatile j v }, .ok)

/-- TEMPLATE_WRITE at the library (R106, R107). -/
def templateWriteBody (slot : Nat) (raw : RawTemplate) (s : State) : State × ResultCode :=
  match templateOf raw, storedIndex slot, volatileIndex slot with
  | some t, some i, _ => storeOrErase i (.write i t) s
  | some t, _, some j => changeVolatile j (some t) s
  | _, _, _ => (s, .badField)

/-- TEMPLATE_ERASE at the library (R108). -/
def templateEraseBody (slot : Nat) (s : State) : State × ResultCode :=
  match storedIndex slot, volatileIndex slot with
  | some i, _ => storeOrErase i (.erase i) s
  | _, some j => changeVolatile j none s
  | _, _ => (s, .badField)

/-- TEMPLATE_WRITE taken by a parser. -/
def takeTemplateWrite (ch : Channel) (m : Match) (slot : Nat) (t : RawTemplate) (s : State) : State :=
  take ch 0x21 m (ifManager ch (templateWriteBody slot t)) s

/-- TEMPLATE_ERASE taken by a parser. -/
def takeTemplateErase (ch : Channel) (m : Match) (slot : Nat) (s : State) : State :=
  take ch 0x22 m (ifManager ch (templateEraseBody slot)) s

/-- TEMPLATE_WRITE (R106). -/
def execTemplateWrite (ch : Channel) (m : Match) (slot : Nat) (t : RawTemplate) (s : State) :
    Host.Outcome State Fault Refusal :=
  .next (takeTemplateWrite ch m slot t s)

/-- TEMPLATE_ERASE (R108). -/
def execTemplateErase (ch : Channel) (m : Match) (slot : Nat) (s : State) : Host.Outcome State Fault Refusal :=
  .next (takeTemplateErase ch m slot s)

/-- LIBRARY_FRAME_EVENT (R154). -/
def execLibraryFrameEvent (s : State) : Host.Outcome State Fault Refusal := .next (libraryWork s)

/-- Whether the next library frame event completes the operation in flight (R111, R113). -/
def completesNext (s : State) : Bool :=
  match s.library.fetchQueue, s.library.operation with
  | [], some fl => decide (fl.op.length ≤ fl.progress + 1)
  | _, _ => false

/-- OPERATION_COMPLETE: the library's work at an event that completes the operation in flight (R111; log entry 2). -/
def execOperationComplete (s : State) : Host.Outcome State Fault Refusal :=
  .next (if completesNext s then libraryWork s else s)

/-- FETCH_SERVED: the library's work at an event that serves a channel's fetch, the head of the queue or set aside
behind an operation that completes (R113 to R115; log entry 2). -/
def execFetchServed (ch : Channel) (s : State) : Host.Outcome State Fault Refusal :=
  .next
    (if s.library.fetchQueue.head?.map Fetch.channel = some ch ∨
        completesNext s ∧ s.library.setAside.any fun f => decide (f.channel = ch) then libraryWork s
    else s)

end Sys2Proof.Machine
end

