-- ==== Sys2Proof/Machine/Resets.lean ====
section
/-!
DEFINITION. The three resets (00_scope.md, Resets): power-on, part reset and channel reset, each block taking the
values its chapter gives; the command POWER_ON.
-/

namespace Sys2Proof.Machine

/-- A parser after a channel reset: addressing and packet count kept (R159). -/
def Parser.afterChannelReset (p : Parser) : Parser := { p with skip := false, arm := none, context := none }

/-- A parser after a part reset: the packet count kept (R159). -/
def Parser.afterPartReset (ch : Channel) (p : Parser) : Parser :=
  { Parser.atPowerOn ch with packetCount := p.packetCount }

/-- A channel's blocks after a reset, but for its parser (R20, R47, R86, R133, R175). The output frames stand. -/
def ChannelState.resetBlocks (c : ChannelState) (p : Parser) : ChannelState :=
  { schedule := .atReset, engine := .idle, promo := .atReset, composer := .atReset, parser := p,
    reporter := .atReset, fetch := .none, tally := false, output := c.output }

/-- A channel reset: the channel's blocks are reset, its fetch leaves the library and its scaler claim is withdrawn
(R20, R47, R96, R99, R116, R172). -/
def channelReset (ch : Channel) (s : State) : State :=
  withdrawFetch ch (releaseClaim ch (s.modChan ch fun c => c.resetBlocks c.parser.afterChannelReset))

/-- A stored slot after power-on: one under operation becomes INVALID (R119). -/
def StoredSlot.afterPowerOn : StoredSlot → StoredSlot
  | .underOperation => .invalid
  | v => v

/-- The stored slots after power-on and part reset (R119, R120). -/
def Library.slotsAfterReset (l : Library) : Vector StoredSlot 32 :=
  Vector.ofFn fun i => (l.storedSlot i).afterPowerOn

/-- Whether an operation abandoned by a part reset sets STORE_FAIL (R120). -/
def Operation.storing : Operation → Bool
  | .write _ _ | .erase _ => true
  | .protectSet _ => false

/-- The library after a part reset: an operation in flight is abandoned, leaving its slot INVALID (R120). -/
def Library.afterPartReset (l : Library) : Library :=
  { stored := l.slotsAfterReset
    volatileSlots := Vector.replicate 8 none
    operation := none
    fetchQueue := []
    setAside := []
    storeFail := l.storeFail || (l.operation.map (·.op.storing)).getD false
    suspended := false }

/-- The library after power-on: stored slots keep their state and content (R119). -/
def Library.afterPowerOn (l : Library) : Library :=
  { Library.delivered with stored := l.slotsAfterReset }

/-- Library Protection after a part reset: every lock set (R131). -/
def LibraryProtection.afterPartReset (p : LibraryProtection) : LibraryProtection :=
  { p with locks := Vector.replicate 32 true }

/-- Library Protection after power-on: every lock set, the guard state from STORED_GUARD (R131). -/
def LibraryProtection.afterPowerOn (p : LibraryProtection) : LibraryProtection :=
  { p with locks := Vector.replicate 32 true, guardState := p.record.storedGuard.toGuard }

/-- A part reset: every block of every channel and every part-wide block but the counter (R99, R120, R131, R146,
R159, R172). -/
def partReset (s : State) : State :=
  { s with
    pool := .atReset
    library := s.library.afterPartReset
    protection := s.protection.afterPartReset
    management := managementAtReset }.mapChans
      fun ch c => c.resetBlocks (c.parser.afterPartReset ch)

/-- The frame rate of the straps (R147). -/
def strapRate : Bool → Bool → FrameRate
  | false, false => .r25
  | false, true => .r29
  | true, false => .r50
  | true, true => .r59

/-- The part after power-on: nonvolatile content kept, the LIBGUARD line at its level, all else at its power-on value
(R119, R131, R146, R147, R159). -/
def powerOn (frs1 frs0 : Bool) (s : State) : State :=
  { s with
    ref := .atPowerOn (strapRate frs1 frs0)
    pool := .atReset
    library := s.library.afterPowerOn
    protection := s.protection.afterPowerOn
    management := managementAtReset
    channels := channelsAtPowerOn
    aligned := none }

/-- POWER_ON (R119, R147). -/
def execPowerOn (frs1 frs0 : Bool) (s : State) : Host.Outcome State Fault Refusal := .next (powerOn frs1 frs0 s)

end Sys2Proof.Machine
end

