-- ==== Sys2Proof/Machine/ParserCommands.lean ====
section
/-!
DEFINITION. The commands of the Control Parser and of the Status Reporter (chapters 10 and 11): SET_UNIT,
SET_MANAGEMENT, RESET_ARM, RESET, RESET_ARM_EXPIRY, CLEAR_EVENTS and READBACK.
-/

namespace Sys2Proof.Machine

/-- SET_UNIT at the parser: all five settings replaced together (R169). -/
def setUnitBody (ch : Channel) (u : RawUnit) (s : State) : State × ResultCode :=
  match addressingOf u with
  | none => (s, .badField)
  | some a => (s.modParser ch ({ · with addressing := a }), .ok)

/-- The four flags a SET_MANAGEMENT carries; bits 4 to 7 are ignored (R168, R181). -/
def managementOf (flags : Byte) : PerChannel Bool :=
  { a := flags.getLsbD 0, b := flags.getLsbD 1, c := flags.getLsbD 2, d := flags.getLsbD 3 }

/-- SET_MANAGEMENT at the parsers (R168). -/
def setManagementBody (flags : Byte) (s : State) : State × ResultCode :=
  let m := managementOf flags
  if m.a || m.b || m.c || m.d then ({ s with management := m }, .ok) else (s, .badField)

/-- RESET_ARM at the parser, whose arm its taking has cleared (R171). -/
def resetArmBody (ch : Channel) (scope : Nat) (s : State) : State × ResultCode :=
  match scopeOf scope with
  | none => (s, .badField)
  | some sc =>
    if sc = .part ∧ ¬ s.management.get ch then (s, .notManager)
    else (s.modParser ch ({ · with arm := some { scope := sc, window := 2 } }), .ok)

/-- RESET at the parser, with the arm as it stood before the arrival (R172). -/
def resetBody (ch : Channel) (before : Option ResetArm) (scope : Nat) (s : State) : State × ResultCode :=
  match scopeOf scope with
  | none => (s, .badField)
  | some sc =>
    if sc = .part ∧ ¬ s.management.get ch then (s, .notManager)
    else if before.map (·.scope) ≠ some sc then (s, .notArmed)
    else
      match sc with
      | .channel => (channelReset ch s, .ok)
      | .part => (partReset s, .ok)

/-- The reset arm at a channel frame event (R171). -/
def Parser.countArm (p : Parser) : Parser :=
  match p.arm with
  | none => p
  | some a => { p with arm := if a.window ≤ 1 then none else some { a with window := a.window - 1 } }

/-- The reset arm's own work at a channel frame event (R171). -/
def armWork (ch : Channel) (s : State) : State := s.modParser ch (·.countArm)

/-- CLEAR_EVENTS at the status reporter (R177). -/
def clearEventsBody (ch : Channel) (mask : BitVec 16) (s : State) : State × ResultCode :=
  (s.modReporter ch (·.clearMask mask), .ok)

/-- What a READBACK finds (R179): the section to fill, or the refusal with whether the section is emptied. -/
def lookUp (ch : Channel) (target keyA keyB : Nat) (s : State) : Except ResultCode Readback :=
  match target with
  | 0 =>
    match s.library.report keyA with
    | some r => .ok (.template keyA r)
    | none => .error .notFound
  | 1 =>
    match (s.chan ch).schedule.entries[keyA]? with
    | some e => .ok (.entry keyA e)
    | none => .error .notFound
  | 2 =>
    match bankOf keyA with
    | none => .error .badField
    | some b =>
      match ((s.chan ch).promo.bank b).items[keyB]? with
      | some i => .ok (.item b keyB i)
      | none => .error .notFound
  | _ => .error .badField

/-- READBACK at the status reporter: BAD_FIELD leaves the section, NOT_FOUND empties it, OK fills it (R179). -/
def readbackBody (ch : Channel) (target keyA keyB : Nat) (s : State) : State × ResultCode :=
  match lookUp ch target keyA keyB s with
  | .ok r => (s.modReporter ch ({ · with readback := some r }), .ok)
  | .error .notFound => (s.modReporter ch ({ · with readback := none }), .notFound)
  | .error code => (s, code)

/-- SET_UNIT taken by a parser. -/
def takeSetUnit (ch : Channel) (m : Match) (u : RawUnit) (s : State) : State := take ch 0x0C m (setUnitBody ch u) s

/-- CLEAR_EVENTS taken by a parser. -/
def takeClearEvents (ch : Channel) (m : Match) (mask : BitVec 16) (s : State) : State :=
  take ch 0x0D m (clearEventsBody ch mask) s

/-- READBACK taken by a parser. -/
def takeReadback (ch : Channel) (m : Match) (target keyA keyB : Nat) (s : State) : State :=
  take ch 0x0E m (readbackBody ch target keyA keyB) s

/-- RESET_ARM taken by a parser. -/
def takeResetArm (ch : Channel) (m : Match) (scope : Nat) (s : State) : State :=
  take ch 0x0F m (resetArmBody ch scope) s

/-- RESET taken by a parser; its answer is the first entry of the list the reset cleared (R172). -/
def takeReset (ch : Channel) (m : Match) (scope : Nat) (s : State) : State :=
  take ch 0x10 m (resetBody ch (s.chan ch).parser.arm scope) s

/-- SET_MANAGEMENT taken by a parser. -/
def takeSetManagement (ch : Channel) (m : Match) (flags : Byte) (s : State) : State :=
  take ch 0x29 m (ifManager ch (setManagementBody flags)) s

/-- SET_UNIT (R169). -/
def execSetUnit (ch : Channel) (m : Match) (u : RawUnit) (s : State) : Host.Outcome State Fault Refusal :=
  .next (takeSetUnit ch m u s)

/-- CLEAR_EVENTS (R177). -/
def execClearEvents (ch : Channel) (m : Match) (mask : BitVec 16) (s : State) : Host.Outcome State Fault Refusal :=
  .next (takeClearEvents ch m mask s)

/-- READBACK (R179). -/
def execReadback (ch : Channel) (m : Match) (target keyA keyB : Nat) (s : State) :
    Host.Outcome State Fault Refusal :=
  .next (takeReadback ch m target keyA keyB s)

/-- RESET_ARM (R171). -/
def execResetArm (ch : Channel) (m : Match) (scope : Nat) (s : State) : Host.Outcome State Fault Refusal :=
  .next (takeResetArm ch m scope s)

/-- RESET (R172). -/
def execReset (ch : Channel) (m : Match) (scope : Nat) (s : State) : Host.Outcome State Fault Refusal :=
  .next (takeReset ch m scope s)

/-- RESET_ARM_EXPIRY: the reset arm's work at an event that finds its window at 1 (R171; log entry 2). -/
def execResetArmExpiry (ch : Channel) (s : State) : Host.Outcome State Fault Refusal :=
  .next
    (match (s.chan ch).parser.arm with
    | some a => if a.window ≤ 1 then armWork ch s else s
    | none => s)

/-- SET_MANAGEMENT (R168). -/
def execSetManagement (ch : Channel) (m : Match) (flags : Byte) (s : State) : Host.Outcome State Fault Refusal :=
  .next (takeSetManagement ch m flags s)

end Sys2Proof.Machine
end

