-- ==== Sys2Proof/Machine/ProtectionCommands.lean ====
section
/-!
DEFINITION. The commands of Library Protection (chapter 7): PROTECT_SET, the four lock commands, FREEZE and
LIBGUARD_CHANGE.
-/

namespace Sys2Proof.Machine

/-- A guarded change: the guard test's refusal, or the change (R124). -/
def guarded (body : State → State × ResultCode) (s : State) : State × ResultCode :=
  match s.protection.guardTest with
  | some code => (s, code)
  | none => body s

/-- PROTECT_SET: field checks, guard test, then an operation in flight refuses it with BUSY (R109, R128). -/
def protectSetBody (r : RawProtection) (s : State) : State × ResultCode :=
  match protectionOf r with
  | none => (s, .badField)
  | some p =>
    guarded (fun s => if s.library.operation.isSome then (s, .busy) else (startOperation (.protectSet p) s, .ok)) s

/-- The slot locks replaced. -/
def setLocks (locks : Vector Bool 32) (s : State) : State × ResultCode :=
  ({ s with protection := { s.protection with locks := locks } }, .ok)

/-- LOCK_SLOT and UNLOCK_SLOT: the lock of a stored slot set or cleared (R125). -/
def lockBody (slot : Nat) (v : Bool) (s : State) : State × ResultCode :=
  match storedIndex slot with
  | none => (s, .badField)
  | some i => guarded (fun s => setLocks (s.protection.locks.set i.val v i.isLt) s) s

/-- LOCK_ALL and UNLOCK_ALL: every lock set or cleared (R126). -/
def lockAllBody (v : Bool) (s : State) : State × ResultCode := guarded (setLocks (Vector.replicate 32 v)) s

/-- FREEZE: the guard state becomes FROZEN (R127). -/
def freezeBody (s : State) : State × ResultCode :=
  ({ s with protection := { s.protection with guardState := .frozen } }, .ok)

/-- PROTECT_SET taken by a parser. -/
def takeProtectSet (ch : Channel) (m : Match) (r : RawProtection) (s : State) : State :=
  take ch 0x23 m (ifManager ch (protectSetBody r)) s

/-- LOCK_SLOT taken by a parser. -/
def takeLockSlot (ch : Channel) (m : Match) (slot : Nat) (s : State) : State :=
  take ch 0x24 m (ifManager ch (lockBody slot true)) s

/-- UNLOCK_SLOT taken by a parser. -/
def takeUnlockSlot (ch : Channel) (m : Match) (slot : Nat) (s : State) : State :=
  take ch 0x25 m (ifManager ch (lockBody slot false)) s

/-- LOCK_ALL taken by a parser. -/
def takeLockAll (ch : Channel) (m : Match) (s : State) : State := take ch 0x26 m (ifManager ch (lockAllBody true)) s

/-- UNLOCK_ALL taken by a parser. -/
def takeUnlockAll (ch : Channel) (m : Match) (s : State) : State :=
  take ch 0x27 m (ifManager ch (lockAllBody false)) s

/-- FREEZE taken by a parser. -/
def takeFreeze (ch : Channel) (m : Match) (s : State) : State := take ch 0x28 m (ifManager ch freezeBody) s

/-- PROTECT_SET (R128). -/
def execProtectSet (ch : Channel) (m : Match) (r : RawProtection) (s : State) : Host.Outcome State Fault Refusal :=
  .next (takeProtectSet ch m r s)

/-- LOCK_SLOT (R125). -/
def execLockSlot (ch : Channel) (m : Match) (slot : Nat) (s : State) : Host.Outcome State Fault Refusal :=
  .next (takeLockSlot ch m slot s)

/-- UNLOCK_SLOT (R125). -/
def execUnlockSlot (ch : Channel) (m : Match) (slot : Nat) (s : State) : Host.Outcome State Fault Refusal :=
  .next (takeUnlockSlot ch m slot s)

/-- LOCK_ALL (R126). -/
def execLockAll (ch : Channel) (m : Match) (s : State) : Host.Outcome State Fault Refusal := .next (takeLockAll ch m s)

/-- UNLOCK_ALL (R126). -/
def execUnlockAll (ch : Channel) (m : Match) (s : State) : Host.Outcome State Fault Refusal :=
  .next (takeUnlockAll ch m s)

/-- FREEZE (R127). -/
def execFreeze (ch : Channel) (m : Match) (s : State) : Host.Outcome State Fault Refusal := .next (takeFreeze ch m s)

/-- LIBGUARD_CHANGE: the sense takes the new level; nothing else changes (R124). -/
def execLibguardChange (asserted : Bool) (s : State) : Host.Outcome State Fault Refusal :=
  .next { s with protection := { s.protection with libguard := asserted } }

end Sys2Proof.Machine
end

