-- ==== Sys2Proof/Machine/Reference.lean ====
section
/-!
DEFINITION. The Reference and Frame Counter (chapter 9): REFERENCE_FRAME_EVENT, REF_LOSS, REF_FRAME_START,
REF_QUALIFY_MISS and SET_TIME.
-/

namespace Sys2Proof.Machine

/-- The output frame built in the frame that ends leaves the part during the frame that opens (R157). -/
def Output.nextFrame (o : Output) : Output := { o with built := none, leaving := o.built }

/-- A reference frame event: the SFC advances by one, every schedule keeps its order against it, the built output
frames leave, and the promo inputs of the frame just opened are still to be judged (R4, R148, R155, R157). -/
def openFrame (s : State) : State :=
  let v := s.ref.sfc + 1
  { s with ref := { s.ref with sfc := v }, aligned := none }.mapChans
    fun _ c => { c.reorder v with output := c.output.nextFrame }

/-- The reference state become LOCKED: REF_LOST clears and the qualifying count is no longer kept (R149). -/
def RefCounter.lock (r : RefCounter) : RefCounter := { r with state := .locked, qualifying := none, refLost := false }

/-- The reference state become FREE_RUN (R148). -/
def RefCounter.lose (r : RefCounter) : RefCounter :=
  { r with state := .freeRun, qualifying := some 0, refLost := true }

/-- The oscillator is held back: the qualifying count has reached 8 (R149). -/
def RefCounter.heldBack (r : RefCounter) : Bool :=
  decide (r.state = .freeRun) && decide (r.qualifying = some Config.qualifyCount)

/-- Two times are one nominal frame length apart, within one-eighth of a frame (R148, R149). -/
def oneFrameApart (interval : Nat) : Bool :=
  decide (Config.frameTicks - Config.frameTicks / 8 ≤ interval) &&
    decide (interval ≤ Config.frameTicks + Config.frameTicks / 8)

/-- The qualifying count after a REF frame start in FREE_RUN (R149). -/
def RefCounter.qualified (r : RefCounter) (sinceStart : Nat) : Nat :=
  if oneFrameApart sinceStart then min (r.qualifying.getD 0 + 1) Config.qualifyCount else 1

/-- REFERENCE_FRAME_EVENT: in LOCKED from REF, in FREE_RUN from the oscillator, or, while the oscillator is held
back, from the REF frame start that locks the part (R148, R149). -/
def execReferenceFrameEvent (s : State) : Host.Outcome State Fault Refusal :=
  let s1 := openFrame s
  .next (if s.ref.heldBack then { s1 with ref := s1.ref.lock } else s1)

/-- REF_LOSS: in LOCKED the event is taken from the oscillator and the state becomes FREE_RUN (R148). In FREE_RUN the
reference is lost already and the event does not occur (log entry 2). -/
def execRefLoss (s : State) : Host.Outcome State Fault Refusal :=
  match s.ref.state with
  | .locked =>
    let s1 := openFrame s
    .next { s1 with ref := s1.ref.lose }
  | .freeRun => .next s

/-- A REF frame start in FREE_RUN, of a REF at the strapped rate: it counts towards qualification, and where the
oscillator is held back, by this frame start or one before, it takes the reference frame event and locks the part when at
least half a frame has passed since the event before (R149; log entry 22). -/
def qualifyStart (sinceStart sinceEvent : Nat) (s : State) : State :=
  let s1 : State := { s with ref := { s.ref with qualifying := some (s.ref.qualified sinceStart) } }
  if (s.ref.heldBack ∨ s1.ref.heldBack) ∧ Config.frameTicks / 2 ≤ sinceEvent then
    let s2 := openFrame s1
    { s2 with ref := s2.ref.lock }
  else s1

/-- REF_FRAME_START, with the frame rate of REF and the times in ticks since the REF frame start before it and since the
reference frame event before it. In FREE_RUN only a REF at the strapped rate is watched (R147; log entry 31); in LOCKED a
frame start takes the event when it falls within one-eighth of a frame of the due instant, and none otherwise (R148,
R149; log entry 6). -/
def execRefFrameStart (start : RefStart) (sinceEvent : Nat) (s : State) : Host.Outcome State Fault Refusal :=
  match s.ref.state with
  | .locked => .next (if oneFrameApart sinceEvent then openFrame s else s)
  | .freeRun => .next (if start.rate = some s.ref.rate then qualifyStart start.since sinceEvent s else s)

/-- REF_QUALIFY_MISS: in FREE_RUN the qualifying count becomes 0; an oscillator that was held back takes the event at
once if one nominal frame length has already passed since the event before (R149). -/
def execRefQualifyMiss (sinceEvent : Nat) (s : State) : Host.Outcome State Fault Refusal :=
  match s.ref.state with
  | .locked => .next s
  | .freeRun =>
    let s1 : State := { s with ref := { s.ref with qualifying := some 0 } }
    .next (if s.ref.heldBack ∧ Config.frameTicks ≤ sinceEvent then openFrame s1 else s1)

/-- The orders in which four notices can reach the four channels. -/
def channelOrders : List (List Channel) :=
  [[.a, .b, .c, .d], [.a, .b, .d, .c], [.a, .c, .b, .d], [.a, .c, .d, .b], [.a, .d, .b, .c], [.a, .d, .c, .b],
   [.b, .a, .c, .d], [.b, .a, .d, .c], [.b, .c, .a, .d], [.b, .c, .d, .a], [.b, .d, .a, .c], [.b, .d, .c, .a],
   [.c, .a, .b, .d], [.c, .a, .d, .b], [.c, .b, .a, .d], [.c, .b, .d, .a], [.c, .d, .a, .b], [.c, .d, .b, .a],
   [.d, .a, .b, .c], [.d, .a, .c, .b], [.d, .b, .a, .c], [.d, .b, .c, .a], [.d, .c, .a, .b], [.d, .c, .b, .a]]

/-- The order the notices of a SET_TIME take, by the free value of its number (R98; log entry 11). -/
def noticeChannels (n : Nat) : List Channel :=
  (channelOrders[Config.noticeOrder n % 24]?).getD [.a, .b, .c, .d]

/-- SET_TIME at the counter: the SFC is replaced, and the notices reach every schedule, every engine and the arbiter
(R17, R18, R97, R151). -/
def setTimeBody (v : FrameValue) (s : State) : State × ResultCode :=
  let s1 : State := { s with ref := { s.ref with sfc := v }, freeCount := s.freeCount + 1 }
  (grantTest ((noticeChannels s.freeCount).foldl jumpChannel s1), .ok)

/-- SET_TIME taken by a parser. -/
def takeSetTime (ch : Channel) (m : Match) (v : FrameValue) (s : State) : State :=
  take ch 0x20 m (ifManager ch (setTimeBody v)) s

/-- SET_TIME (R151). -/
def execSetTime (ch : Channel) (m : Match) (v : FrameValue) (s : State) : Host.Outcome State Fault Refusal :=
  .next (takeSetTime ch m v s)

end Sys2Proof.Machine
end

