-- ==== Sys2Proof/Machine/ScheduleCommands.lean ====
section
/-!
DEFINITION. The commands and events of the Junction Schedule (chapter 1): SCHEDULE, CUE, DELETE, CLEAR_SCHEDULE,
SET_TOLERANCE, ARM and MISSED_BUSY.
-/

namespace Sys2Proof.Machine

/-- An insert conflicts with the armed junction: the engine is ARMED and the entry's start is not ahead of the
armed start (R9). -/
def conflicts (c : ChannelState) (start : FrameValue) : Bool :=
  match c.engine.state, c.engine.record with
  | .armed, some r => !ahead start r.start
  | _, _ => false

/-- The tests of an insert after its own first step, and its placing, LATE_TAKEN and the arm test (R9 to R11). -/
def placeEntry (ch : Channel) (e : Entry) (s : State) : State × ResultCode :=
  let c := s.chan ch
  if conflicts c e.start then (s, .conflict)
  else if c.schedule.entries.any fun f => decide (f.start = e.start) then (s, .duplicate)
  else if Config.scheduleSize ≤ c.schedule.entries.length then (s, .full)
  else
    let s1 := s.modChan ch fun c =>
      { c with
        schedule := { c.schedule with entries := insertEntry s.ref.sfc e c.schedule.entries }
        reporter := c.reporter.raiseIf e.late .lateTaken }
    (armTest ch s1, .ok)

/-- SCHEDULE at the schedule: field checks, the lateness test, then the other tests (R3, R5, R6, R11). -/
def scheduleBody (ch : Channel) (start : FrameValue) (f : InsertFields) (s : State) : State × ResultCode :=
  let sfc := s.ref.sfc
  let onTime := ahead start sfc || decide (start = sfc)
  let l := (sfc - start).toNat
  match entryOf start (!onTime) (if onTime then 0 else l) f with
  | none => (s, .badField)
  | some e =>
    if !onTime && decide ((s.chan ch).schedule.tolerance < l) then (s, .late) else placeEntry ch e s

/-- CUE at the schedule: its start is the SFC plus the offset, and it is never late (R8). -/
def cueBody (ch : Channel) (offset : Nat) (f : InsertFields) (s : State) : State × ResultCode :=
  if Config.maxCueOffset < offset then (s, .badField)
  else
    match entryOf (s.ref.sfc + BitVec.ofNat 32 offset) false 0 f with
    | none => (s, .badField)
    | some e => placeEntry ch e s

/-- DELETE at the schedule (R12). -/
def deleteBody (ch : Channel) (start : FrameValue) (s : State) : State × ResultCode :=
  if (s.chan ch).schedule.entries.any fun f => decide (f.start = start) then
    (s.modChan ch fun c =>
      { c with
        schedule :=
          { c.schedule with entries := c.schedule.entries.filter fun f => decide (f.start ≠ start) } }, .ok)
  else (s, .notFound)

/-- A schedule emptied, its tolerance kept (R13). -/
def clearScheduleBody (ch : Channel) (s : State) : State × ResultCode :=
  (s.modChan ch fun c => { c with schedule := { c.schedule with entries := [] } }, .ok)

/-- The late tolerance set, limited to 4 (R7). -/
def setToleranceBody (ch : Channel) (value : Nat) (s : State) : State × ResultCode :=
  (s.modChan ch fun c => { c with schedule := { c.schedule with tolerance := min value Config.maxTolerance } }, .ok)

/-- SCHEDULE taken by a parser. -/
def takeSchedule (ch : Channel) (m : Match) (start : FrameValue) (f : InsertFields) (s : State) : State :=
  take ch 0x01 m (scheduleBody ch start f) s

/-- CUE taken by a parser. -/
def takeCue (ch : Channel) (m : Match) (offset : Nat) (f : InsertFields) (s : State) : State :=
  take ch 0x02 m (cueBody ch offset f) s

/-- DELETE taken by a parser. -/
def takeDelete (ch : Channel) (m : Match) (start : FrameValue) (s : State) : State :=
  take ch 0x03 m (deleteBody ch start) s

/-- CLEAR_SCHEDULE taken by a parser. -/
def takeClearSchedule (ch : Channel) (m : Match) (s : State) : State := take ch 0x04 m (clearScheduleBody ch) s

/-- SET_TOLERANCE taken by a parser. -/
def takeSetTolerance (ch : Channel) (m : Match) (value : Nat) (s : State) : State :=
  take ch 0x05 m (setToleranceBody ch value) s

/-- SCHEDULE (R5). -/
def execSchedule (ch : Channel) (m : Match) (start : FrameValue) (f : InsertFields) (s : State) :
    Host.Outcome State Fault Refusal :=
  .next (takeSchedule ch m start f s)

/-- CUE (R8). -/
def execCue (ch : Channel) (m : Match) (offset : Nat) (f : InsertFields) (s : State) :
    Host.Outcome State Fault Refusal :=
  .next (takeCue ch m offset f s)

/-- DELETE (R12). -/
def execDelete (ch : Channel) (m : Match) (start : FrameValue) (s : State) : Host.Outcome State Fault Refusal :=
  .next (takeDelete ch m start s)

/-- CLEAR_SCHEDULE (R13). -/
def execClearSchedule (ch : Channel) (m : Match) (s : State) : Host.Outcome State Fault Refusal :=
  .next (takeClearSchedule ch m s)

/-- SET_TOLERANCE (R7). -/
def execSetTolerance (ch : Channel) (m : Match) (value : Nat) (s : State) : Host.Outcome State Fault Refusal :=
  .next (takeSetTolerance ch m value s)

/-- ARM: the arm test (R14). -/
def execArm (ch : Channel) (s : State) : Host.Outcome State Fault Refusal := .next (armTest ch s)

/-- MISSED_BUSY: the miss sweep, while the engine is busy (R16). An engine that is IDLE arms a due entry instead, so
the event does not occur there (log entry 2). -/
def execMissedBusy (ch : Channel) (s : State) : Host.Outcome State Fault Refusal :=
  .next (if (s.chan ch).engine.state = .idle then s else missSweep ch s)

end Sys2Proof.Machine
end

