-- ==== Sys2Proof/Machine/Composition.lean ====
section
/-!
DEFINITION. The Composer and Audio Mixer with the scalers it draws through: input validity (R155), resampling (R63 to
R65), source hold (R139 to R141), painting (R136 to R138), gains and mix (R142 to R144), and the composer's work at a
channel frame event.
-/

namespace Sys2Proof.Machine

/-! ### Input validity -/

/-- An input is valid in a frame: it is in step with the reference frame event by a quarter frame, received, and of
the part's format at the strapped rate (R155). -/
def inputValid (rate : FrameRate) (f : InputFrame) : Bool :=
  decide (-(Config.frameTicks / 4 : Int) ≤ f.offset) && decide (f.offset ≤ (Config.frameTicks / 4 : Int)) &&
    f.received && decide (f.pixels = 1920) && decide (f.lines = 1080) && f.progressive && f.tenBit422 &&
    decide (f.rate = some rate)

/-- The validity of the promo inputs in a frame (R155). -/
def promoValidity (rate : FrameRate) (p : PromoFrames) : PromoValidity :=
  { prm1 := inputValid rate p.prm1, prm2 := inputValid rate p.prm2 }

/-- The audio samples of a frame of nominal length, by the frame rate; at 29.97 and 59.94 a long frame has one sample
more (R143, R147). -/
def nominalSamples (rate : FrameRate) (long : Bool) : Nat :=
  match rate with
  | .r25 => 1920
  | .r29 => if long then 1602 else 1601
  | .r50 => 960
  | .r59 => if long then 801 else 800

/-- The audio samples of the frame built at a channel frame event: those of its rate, in proportion to the length of the
reference frame it leaves in (R143, R147, R157; log entry 10). -/
def frameSamples (rate : FrameRate) (inp : FrameInputs) : Nat :=
  nominalSamples rate inp.long * inp.length / Config.frameTicks

/-! ### Pictures -/

/-- A sample of a plane. -/
def planeAt (p : Array (Array Nat)) (column line : Nat) : Nat := (p.getD line #[]).getD column 0

/-- A plane by a function of column and line. -/
def makePlane (width height : Nat) (f : Nat → Nat → Nat) : Array (Array Nat) :=
  Array.ofFn (n := height) fun j => Array.ofFn (n := width) fun i => f i j

/-- A picture by functions of column and line for each component. -/
def makePicture (width height : Nat) (luma cb cr : Nat → Nat → Nat) : Picture :=
  { width := width, height := height, luma := makePlane width height luma, cb := makePlane (width / 2) height cb,
    cr := makePlane (width / 2) height cr }

/-- A field of one colour (R138, R140). -/
def fieldOf (c : Colour) (width height : Nat) : Picture :=
  makePicture width height (fun _ _ => c.luma) (fun _ _ => c.cb) (fun _ _ => c.cr)

/-! ### Resampling -/

/-- The phase of an output position in 16.16 fixed point: the top 4 bits of its fraction (R63). -/
def phaseOf (pos : Nat) : Nat := pos % 65536 / 4096

/-- A filter's coefficient for a phase and a tap. At phase 0 the left tap has the whole weight; at the others the left
tap has what the free coefficients leave of one, so that each phase sums to one (R65; log entry 9). -/
def coefficient (raw : Nat → Nat → Rat) (taps left phase tap : Nat) : Rat :=
  if phase = 0 then (if tap = left then 1 else 0)
  else if tap = left then
    1 - ((List.range taps).filter (· ≠ left)).foldl (fun acc t => acc + raw phase t) 0
  else raw phase tap

/-- A sample number kept within a line or a picture, the edge sample in place of one beyond it (R63, R64). -/
def edgeIndex (n tap before count : Nat) : Nat := min (n + tap - before) (count - 1)

/-- The weighted sum of the taps of one output position (R63, R64). -/
def weighTaps (raw : Nat → Nat → Rat) (taps left pos count : Nat) (sample : Nat → Rat) : Rat :=
  (List.range taps).foldl
    (fun acc t =>
      acc + coefficient raw taps left (phaseOf pos) t * sample (edgeIndex (pos / 65536) t left count)) 0

/-- A filtered component rounded to the nearest integer, halves up, and limited to 4 to 1019 (R65). -/
def roundComponent (r : Rat) : Nat := min (max (r + 1 / 2).floor.toNat 4) 1019

/-- A line of a plane through the horizontal filter of 8 taps, n − 3 to n + 4, to a number of output samples (R63). -/
def filterLine (step outWidth inWidth : Nat) (line : Array Nat) : Array Rat :=
  Array.ofFn (n := outWidth) fun i =>
    let v := weighTaps Config.horizontalTap 8 3 (i.val * step) inWidth fun n => (line.getD n 0 : Rat)
    if Config.roundsBetweenFilters then (roundComponent v : Rat) else v

/-- A plane through both filters: the vertical filter has 4 taps, n − 1 to n + 2 (R63, R64). -/
def resamplePlane (stepX stepY outWidth outHeight inWidth inHeight : Nat) (p : Array (Array Nat)) :
    Array (Array Nat) :=
  let h := p.map (filterLine stepX outWidth inWidth)
  makePlane outWidth outHeight fun i j =>
    roundComponent (weighTaps Config.verticalTap 4 1 (j * stepY) inHeight fun n => (h.getD n #[]).getD i 0)

/-- The picture of a source in a window: a copy at unit steps, resampled otherwise (R63 to R65). -/
def windowPicture (r : Rect) (src : Picture) : Picture :=
  if stepH r = Config.one ∧ stepV r = Config.one then src
  else
    { width := r.w, height := r.h
      luma := resamplePlane (stepH r) (stepV r) r.w r.h 1920 1080 src.luma
      cb := resamplePlane (stepH r) (stepV r) (r.w / 2) r.h 960 1080 src.cb
      cr := resamplePlane (stepH r) (stepV r) (r.w / 2) r.h 960 1080 src.cr }

/-- A hold picture repeated into a window by repetition of its samples (R141). -/
def repeatPicture (r : Rect) (hold : Picture) : Picture :=
  let pick (p : Array (Array Nat)) (i j : Nat) := planeAt p (i * hold.width / r.w) (j * hold.height / r.h)
  makePicture r.w r.h (pick hold.luma) (pick hold.cb) (pick hold.cr)

/-! ### What a frame is drawn from -/

/-- What the engine and the Promo List hand the composer for a frame (R134): the state it is drawn in, IDLE for a
passthrough frame, the windows, the current item and the settings in force. -/
structure FrameView where
  state : EngineState
  pgm : Option Rect
  promo : Option Rect
  item : Option Item
  look : Look
  deriving DecidableEq, Repr

/-- A passthrough frame (R135). -/
def FrameView.passthrough : FrameView :=
  { state := .idle, pgm := some fullFrame, promo := none, item := none, look := .outside }

/-- The frame a channel's blocks hand at an event (R22, R134, R135). -/
def ChannelState.view (c : ChannelState) : FrameView :=
  match c.engine.state with
  | .idle | .armed => .passthrough
  | st =>
    { state := st, pgm := c.engine.pgmRect, promo := c.engine.promoRect, item := c.promo.current,
      look := c.composer.look }

/-! ### Source hold -/

/-- A window's picture in a frame, its hold state after it, and whether a hold begins at it. -/
structure Drawn where
  picture : Picture
  hold : Hold
  begins : Bool
  deriving DecidableEq, Repr

/-- The hold counter after one more invalid frame (R139, R140). -/
def Hold.next (h : Hold) : Nat := min (h.counter + 1) Config.holdLimit

/-- A window on an input: its picture while the input is valid, the hold picture repeated for five frames of a loss,
the backing colour after that (R138 to R140). -/
def drawInput (valid : Bool) (src : Picture) (r : Rect) (backing : Colour) (h : Hold) : Drawn :=
  if valid then
    let p := windowPicture r src
    { picture := p, hold := { counter := 0, picture := some p }, begins := false }
  else
    let fill := fieldOf backing r.w r.h
    let shown := if h.next < Config.holdLimit then (h.picture.map (repeatPicture r)).getD fill else fill
    { picture := shown, hold := { counter := h.next, picture := h.picture }, begins := decide (h.counter = 0) }

/-- A window filled with the backing colour, which counts as a valid source (R138, R140). -/
def drawBacking (r : Rect) (backing : Colour) : Drawn :=
  let p := fieldOf backing r.w r.h
  { picture := p, hold := { counter := 0, picture := some p }, begins := false }

/-- An absent window: the counter 0, the hold picture discarded (R139, R140). -/
def drawAbsent : Drawn := { picture := fieldOf black 0 0, hold := .clear, begins := false }

/-- The programme window of a frame (R138, R139). -/
def drawProgramme (rate : FrameRate) (inp : FrameInputs) (view : FrameView) (h : Hold) : Drawn :=
  match view.pgm with
  | none => drawAbsent
  | some r => drawInput (inputValid rate inp.pgm) inp.pgm.picture r view.look.backing h

/-- The promo window of a frame (R138, R140). -/
def drawPromo (rate : FrameRate) (inp : FrameInputs) (view : FrameView) (h : Hold) : Drawn :=
  match view.promo with
  | none => drawAbsent
  | some r =>
    match view.item.map Item.source with
    | some .prm1 => drawInput (inputValid rate inp.promo.prm1) inp.promo.prm1.picture r view.look.backing h
    | some .prm2 => drawInput (inputValid rate inp.promo.prm2) inp.promo.prm2.picture r view.look.backing h
    | some .backing => drawBacking r view.look.backing
    | none => drawBacking r view.look.backing

/-! ### Painting -/

/-- A point is inside a rectangle (00_scope.md, Rectangles). -/
def Rect.contains (r : Rect) (column line : Nat) : Bool :=
  decide (r.x ≤ column) && decide (column < r.x + r.w) && decide (r.y ≤ line) && decide (line < r.y + r.h)

/-- A point is inside the border ring of a width around a programme window (R137). -/
def inRing (width : Nat) (r : Rect) (column line : Nat) : Bool :=
  decide (r.x ≤ column + width) && decide (column < r.x + r.w + width) && decide (r.y ≤ line + width) &&
    decide (line < r.y + r.h + width) && !Rect.contains r column line && Rect.contains fullFrame column line

/-- What is painted at a point. -/
inductive Paint
  | programme | promo | border | backing
  deriving DecidableEq, Repr

/-- A point is inside a window that is present. -/
def insideWindow (r : Option Rect) (column line : Nat) : Bool :=
  match r with
  | none => false
  | some r => Rect.contains r column line

/-- A point is inside the border ring, which is drawn only with the programme window (R137). -/
def insideRing (view : FrameView) (column line : Nat) : Bool :=
  match view.pgm with
  | none => false
  | some r => inRing view.look.borderWidth r column line

/-- The first of top window, border ring, bottom window and backing colour that applies at a point (R136). -/
def paintAt (view : FrameView) (column line : Nat) : Paint :=
  let pgm := insideWindow view.pgm column line
  let promo := insideWindow view.promo column line
  let ring := insideRing view column line
  match view.look.layering with
  | some .promoOnTop =>
    if promo then .promo else if ring then .border else if pgm then .programme else .backing
  | _ => if pgm then .programme else if ring then .border else if promo then .promo else .backing

/-- The sample of a component at a point of the frame: chroma samples lie on whole pairs of columns, `scale` 2
(R136, R138). -/
def composeSample (view : FrameView) (pgm promo : Array (Array Nat)) (backing border scale i j : Nat) : Nat :=
  let at' (r : Option Rect) (p : Array (Array Nat)) :=
    match r with
    | none => backing
    | some r => planeAt p ((i * scale - r.x) / scale) (j - r.y)
  match paintAt view (i * scale) j with
  | .programme => at' view.pgm pgm
  | .promo => at' view.promo promo
  | .border => border
  | .backing => backing

/-- The picture of a frame: a passthrough frame is the programme's own, any other is painted (R135, R136). -/
def composePicture (view : FrameView) (pgm promo : Picture) : Picture :=
  if view.state = .idle then pgm
  else
    let back := view.look.backing
    let edge := view.look.borderColour
    makePicture 1920 1080 (composeSample view pgm.luma promo.luma back.luma edge.luma 1)
      (composeSample view pgm.cb promo.cb back.cb edge.cb 2) (composeSample view pgm.cr promo.cr back.cr edge.cr 2)

/-! ### Audio -/

/-- The gain of a gain code (R142). -/
def codeGain : Nat → Nat
  | 0 => 65536
  | 1 => 32768
  | 2 => 16384
  | _ => 0

/-- The audio codes in force without an item's own (R134, R142). -/
def Look.audio (l : Look) : AudioCodes := l.codes.getD { pgm := 0, prm := 3 }

/-- The targets of gP and gR for a frame (R142). -/
def gainTargets (view : FrameView) : Nat × Nat :=
  let d := view.look.audio
  match view.state with
  | .idle | .armed | .release => (65536, 0)
  | .squeeze | .held =>
    match view.item with
    | some i => (codeGain (i.pgmAudio.getD d.pgm), codeGain (i.prmAudio.getD d.prm))
    | none => (codeGain d.pgm, 0)
  | .takeover | .promoFull =>
    match view.item with
    | some i => (0, codeGain (i.prmAudio.getD d.prm))
    | none => (0, 0)

/-- The value a new ramp starts from: the gain of the last sample mixed, or the settled value where no ramp runs
(R143). -/
def Gain.startValue (g : Gain) : Nat := if g.position.isNone then g.target else g.present

/-- A new target starts a ramp from the present value; the target in force changes nothing (R142, R143). -/
def Gain.retarget (g : Gain) (target : Nat) : Gain :=
  if target = g.target then g
  else { present := g.present, target := target, start := g.startValue, position := some 0 }

/-- The gain at a ramp position (R143). -/
def rampAt (start target position : Nat) : Nat :=
  ((start : Int) + ((target : Int) - (start : Int)) * (position : Int) / 1024).toNat

/-- The gain of the n-th sample from now (R143). -/
def Gain.at (g : Gain) (n : Nat) : Nat :=
  match g.position with
  | none => g.target
  | some s => if Config.rampLength ≤ s + n then g.target else rampAt g.start g.target (s + n)

/-- The gain after a number of samples have been mixed (R143). -/
def Gain.after (g : Gain) (n : Nat) : Gain :=
  { g with
    present := if n = 0 then g.present else g.at (n - 1)
    position := match g.position with
      | none => none
      | some s => if Config.rampLength ≤ s + n then none else some (s + n) }

/-- One mixed sample: the floored weighted sum, limited to 24 bits (R144). -/
def mixSample (p r : Int) (gP gR : Nat) : Int :=
  max (-8388608) (min 8388607 ((p * gP + r * gR) / 65536))

/-- The promo source of the mix: silence unless the promo window is present and its item names a valid input
(R144). -/
def promoAudio (rate : FrameRate) (inp : FrameInputs) (view : FrameView) : List Sample :=
  match view.promo, view.item.map Item.source with
  | some _, some .prm1 => if inputValid rate inp.promo.prm1 then inp.promo.prm1.pair1 else []
  | some _, some .prm2 => if inputValid rate inp.promo.prm2 then inp.promo.prm2.pair1 else []
  | _, _ => []

/-- The programme source of the mix: silence in a frame in which PGM-x is invalid (R144). -/
def programmeAudio (rate : FrameRate) (inp : FrameInputs) : List Sample :=
  if inputValid rate inp.pgm then inp.pgm.pair1 else []

/-- Output pair 1 of a frame (R144). -/
def mixFrame (n : Nat) (gP gR : Gain) (p r : List Sample) : List Sample :=
  (List.range n).map fun i =>
    let ps := p.getD i (0, 0)
    let rs := r.getD i (0, 0)
    (mixSample ps.1 rs.1 (gP.at i) (gR.at i), mixSample ps.2 rs.2 (gP.at i) (gR.at i))

/-! ### The composer's work at a channel frame event -/

/-- The gains of a frame with its targets set (R142). -/
def Composer.retargeted (c : Composer) (view : FrameView) : Composer :=
  { c with gP := c.gP.retarget (gainTargets view).1, gR := c.gR.retarget (gainTargets view).2 }

/-- The composer of a channel at a channel frame event: hold counters and pictures, gains, the frame built, and
SOURCE_HOLD (R134 to R144). The frame takes the packets of PGM-x only while PGM-x is valid (R135). -/
def ChannelState.compose (c : ChannelState) (rate : FrameRate) (inp : FrameInputs) (view : FrameView) :
    ChannelState :=
  let pgm := drawProgramme rate inp view c.composer.pgmHold
  let promo := drawPromo rate inp view c.composer.promoHold
  let g := c.composer.retargeted view
  let valid := inputValid rate inp.pgm
  let n := frameSamples rate inp
  { c with
    composer :=
      { g with
        pgmHold := pgm.hold, promoHold := promo.hold, gP := g.gP.after n, gR := g.gR.after n }
    reporter := c.reporter.raiseIf (pgm.begins || promo.begins) .sourceHold
    output :=
      { passed := []
        built := some
          { picture := composePicture view pgm.picture promo.picture
            pair1 := mixFrame n g.gP g.gR (programmeAudio rate inp) (promoAudio rate inp view)
            otherPairs := if valid then inp.pgm.otherPairs else []
            anc := if valid then c.output.passed ++ inp.pgm.activeAnc else [] }
        leaving := c.output.leaving } }

/-- The composer's own work at a channel frame event, on the frame its channel's blocks hand it. -/
def composerWork (ch : Channel) (inp : FrameInputs) (view : FrameView) (s : State) : State :=
  s.modChan ch (·.compose s.ref.rate inp view)

end Sys2Proof.Machine
end

