-- ==== Sys2Proof/Machine/Wire.lean ====
section
/-!
DEFINITION. The wire formats (section 11.4): words and checksum (R180), control payloads read and written (R180 to
R183), and the status packet (R184).
-/

namespace Sys2Proof.Machine

/-! ### Words -/

/-- The number of ones among the low 8 bits of a number, modulo 2. -/
def oddOnes (n : Nat) : Nat := ((List.range 8).filter fun i => n.testBit i).length % 2

/-- A word carrying a byte: bit 8 makes bits 0 to 8 hold an even number of ones, bit 9 is its inverse (R180). -/
def byteWord (b : Nat) : Word10 :=
  BitVec.ofNat 10 (b % 256 + 256 * oddOnes b + 512 * (1 - oddOnes b))

/-- The byte a word carries (R180). -/
def wordByte (w : Word10) : Nat := w.toNat % 256

/-- Bits 0 to 8 of a word. -/
def wordLow9 (w : Word10) : Nat := w.toNat % 512

/-- The sum of bits 0 to 8 of words, modulo 512 (R180). -/
def checkSum (ws : List Word10) : Nat := (ws.map wordLow9).sum % 512

/-- The checksum word the part writes: bits 0 to 8 the sum, bit 9 the inverse of bit 8 (R180). -/
def checkWord (ws : List Word10) : Word10 :=
  BitVec.ofNat 10 (checkSum ws + 512 * (1 - checkSum ws / 256))

/-- The words of a Gosmara packet after its opening marker: two identification words, the data count, the payload and
the checksum word (R180). -/
def gosmaraWords (id1 id2 : Nat) (payload : List Nat) : List Word10 :=
  let body := byteWord payload.length :: payload.map byteWord
  byteWord id1 :: byteWord id2 :: (body ++ [checkWord body])

/-- How the parser classes a packet by its identification words (R160). -/
inductive PacketClass
  | control
  | status
  | other
  deriving DecidableEq, Repr

/-- The class of a packet's words (R160). -/
def classify (ws : List Word10) : PacketClass :=
  match ws with
  | id1 :: id2 :: _ =>
    if wordByte id1 = 0x52 ∧ wordByte id2 = 0x21 then .control
    else if wordByte id1 = 0x52 ∧ wordByte id2 = 0x22 then .status
    else .other
  | _ => .other

/-- The payload bytes of a packet whose checksum word is correct. A packet too short for its data count has no
checksum word in its place and counts as one with a wrong one (R162, R180; log entry 13). -/
def checkedPayload (ws : List Word10) : Option (List Nat) :=
  match ws with
  | _ :: _ :: dc :: rest =>
    let n := wordByte dc
    let payload := rest.take n
    match rest[n]? with
    | some c => if wordLow9 c = checkSum (dc :: payload) then some (payload.map wordByte) else none
    | none => none
  | _ => none

/-! ### Control payloads -/

/-- The commands a control payload carries, with their operands (R181). -/
inductive Command
  | schedule (start : FrameValue) (f : InsertFields)
  | cue (offset : Nat) (f : InsertFields)
  | delete (start : FrameValue)
  | clearSchedule
  | setTolerance (value : Nat)
  | endHold
  | extend
  | abort
  | openBank (bank count chain : Nat)
  | items (its : List RawItem)
  | cancelLoad
  | setUnit (u : RawUnit)
  | clearEvents (mask : BitVec 16)
  | readback (target keyA keyB : Nat)
  | resetArm (scope : Nat)
  | reset (scope : Nat)
  | setTime (value : FrameValue)
  | templateWrite (slot : Nat) (t : RawTemplate)
  | templateErase (slot : Nat)
  | protectSet (r : RawProtection)
  | lockSlot (slot : Nat)
  | unlockSlot (slot : Nat)
  | lockAll
  | unlockAll
  | freeze
  | setManagement (flags : Byte)
  deriving DecidableEq, Repr

/-- Two bytes as a number, the most significant first (R180). -/
def be16 (hi lo : Nat) : Nat := hi * 256 + lo

/-- Four bytes as a frame value (R180). -/
def be32 (b3 b2 b1 b0 : Nat) : FrameValue := BitVec.ofNat 32 (((b3 * 256 + b2) * 256 + b1) * 256 + b0)

/-- SCHEDULE's bytes from byte 2 on (R181). -/
def parseSchedule : List Nat → Option Command
  | [s3, s2, s1, s0, tag, slot, bank, c1, c0, act] =>
    some (.schedule (be32 s3 s2 s1 s0)
      { tag := tag, slot := slot, firstBank := bank, credit := be16 c1 c0, endAction := act, watch := none })
  | [s3, s2, s1, s0, tag, slot, bank, c1, c0, act, w] =>
    some (.schedule (be32 s3 s2 s1 s0)
      { tag := tag, slot := slot, firstBank := bank, credit := be16 c1 c0, endAction := act, watch := some w })
  | _ => none

/-- CUE's bytes from byte 2 on (R181). -/
def parseCue : List Nat → Option Command
  | [o1, o0, tag, slot, bank, c1, c0, act] =>
    some (.cue (be16 o1 o0)
      { tag := tag, slot := slot, firstBank := bank, credit := be16 c1 c0, endAction := act, watch := none })
  | [o1, o0, tag, slot, bank, c1, c0, act, w] =>
    some (.cue (be16 o1 o0)
      { tag := tag, slot := slot, firstBank := bank, credit := be16 c1 c0, endAction := act, watch := some w })
  | _ => none

/-- A two-byte field taken when its presence bit is set (R182). -/
def takeHalf (present : Bool) (bs : List Nat) : Option (Option Nat × List Nat) :=
  if present then
    match bs with
    | hi :: lo :: rest => some (some (be16 hi lo), rest)
    | _ => none
  else some (none, bs)

/-- A one-byte field taken when its presence bit is set (R182). -/
def takeByte (present : Bool) (bs : List Nat) : Option (Option Nat × List Nat) :=
  if present then
    match bs with
    | b :: rest => some (some b, rest)
    | _ => none
  else some (none, bs)

/-- An item at the head of a list of bytes, and the bytes after it (R182). -/
def parseItem : List Nat → Option (RawItem × List Nat)
  | tag :: source :: timing :: presence :: d1 :: d0 :: rest =>
    match takeHalf (presence.testBit 0) rest with
    | none => none
    | some (gate, rest1) =>
      match takeByte (presence.testBit 1) rest1 with
      | none => none
      | some (pgm, rest2) =>
        match takeByte (presence.testBit 2) rest2 with
        | none => none
        | some (prm, rest3) =>
          some
            ({ tag := tag, source := source, timing := timing, duration := be16 d1 d0, gateLimit := gate,
               pgmAudio := pgm, prmAudio := prm }, rest3)
  | _ => none

/-- A declared number of items that fill the bytes exactly (R165, R180). -/
def parseItems : Nat → List Nat → Option (List RawItem)
  | 0, [] => some []
  | 0, _ :: _ => none
  | n + 1, bs =>
    match parseItem bs with
    | none => none
    | some (i, rest) => (parseItems n rest).map (i :: ·)

/-- ITEMS' bytes from byte 2 on: the item count must be 1 to 8 (R165). -/
def parseItemsCommand : List Nat → Option Command
  | count :: rest => if count < 1 ∨ 8 < count then none else (parseItems count rest).map .items
  | [] => none

/-- A two-byte number at a place of a list of bytes. -/
def halfAt (bs : List Nat) (i : Nat) : Nat := be16 (bs.getD i 0) (bs.getD (i + 1) 0)

/-- A rectangle at a place of a list of bytes (R183). -/
def rectFrom (bs : List Nat) (i : Nat) : Rect :=
  { x := halfAt bs i, y := halfAt bs (i + 2), w := halfAt bs (i + 4), h := halfAt bs (i + 6) }

/-- A colour at a place of a list of bytes (R183). -/
def colourFrom (bs : List Nat) (i : Nat) : Colour :=
  { luma := halfAt bs i, cb := halfAt bs (i + 2), cr := halfAt bs (i + 4) }

/-- The 44 bytes of a template record after its label (R183). -/
def parseTemplateBody (label : Option (List Nat)) (bs : List Nat) : Option RawTemplate :=
  if bs.length = 44 then
    some
      { label := label
        pgmTarget := rectFrom bs 0
        prmStart := rectFrom bs 8
        prmTarget := rectFrom bs 16
        layering := bs.getD 24 0
        mIn := bs.getD 25 0
        mOut := bs.getD 26 0
        easeIn := bs.getD 27 0
        easeOut := bs.getD 28 0
        backing := colourFrom bs 29
        borderWidth := bs.getD 35 0
        borderColour := colourFrom bs 36
        pgmAudio := bs.getD 42 0
        prmAudio := bs.getD 43 0 }
  else none

/-- A template record (R180, R183). -/
def parseTemplate : List Nat → Option RawTemplate
  | len :: rest =>
    if len = 0xFF then parseTemplateBody none rest
    else if rest.length < len then none
    else parseTemplateBody (some (rest.take len)) (rest.drop len)
  | [] => none

/-- TEMPLATE_WRITE's bytes from byte 2 on (R181). -/
def parseTemplateWrite : List Nat → Option Command
  | slot :: rest => (parseTemplate rest).map (.templateWrite slot)
  | [] => none

/-- A command with no fields (R181). -/
def parseBare (c : Command) : List Nat → Option Command
  | [] => some c
  | _ :: _ => none

/-- A command with a one-byte field (R181). -/
def parseOne (c : Nat → Command) : List Nat → Option Command
  | [b] => some (c b)
  | _ => none

/-- A command with a three-byte field (R181). -/
def parseThree (c : Nat → Nat → Nat → Command) : List Nat → Option Command
  | [x, y, z] => some (c x y z)
  | _ => none

/-- A command with a frame value (R181). -/
def parseFrame (c : FrameValue → Command) : List Nat → Option Command
  | [b3, b2, b1, b0] => some (c (be32 b3 b2 b1 b0))
  | _ => none

/-- SET_UNIT's bytes from byte 2 on (R181). -/
def parseSetUnit : List Nat → Option Command
  | [p, a, m, ac, c] => some (.setUnit { primaryId := p, secondId := a, mask := m, allCall := ac, consume := c })
  | _ => none

/-- CLEAR_EVENTS' bytes from byte 2 on (R181). -/
def parseClearEvents : List Nat → Option Command
  | [hi, lo] => some (.clearEvents (BitVec.ofNat 16 (be16 hi lo)))
  | _ => none

/-- PROTECT_SET's bytes from byte 2 on (R181). -/
def parseProtectSet : List Nat → Option Command
  | [m, s, z, c, g] =>
    some (.protectSet { mode := m, side := s, sizeCode := z, complement := c, storedGuard := g })
  | _ => none

/-- The command of a kind and the bytes from byte 2 on: none where the kind names no command or the data count is not
allowed for it (R165, R180, R181). -/
def parseCommand (kind : Nat) (bs : List Nat) : Option Command :=
  match kind with
  | 0x01 => parseSchedule bs
  | 0x02 => parseCue bs
  | 0x03 => parseFrame .delete bs
  | 0x04 => parseBare .clearSchedule bs
  | 0x05 => parseOne .setTolerance bs
  | 0x06 => parseBare .endHold bs
  | 0x07 => parseBare .extend bs
  | 0x08 => parseBare .abort bs
  | 0x09 => parseThree .openBank bs
  | 0x0A => parseItemsCommand bs
  | 0x0B => parseBare .cancelLoad bs
  | 0x0C => parseSetUnit bs
  | 0x0D => parseClearEvents bs
  | 0x0E => parseThree .readback bs
  | 0x0F => parseOne .resetArm bs
  | 0x10 => parseOne .reset bs
  | 0x20 => parseFrame .setTime bs
  | 0x21 => parseTemplateWrite bs
  | 0x22 => parseOne .templateErase bs
  | 0x23 => parseProtectSet bs
  | 0x24 => parseOne .lockSlot bs
  | 0x25 => parseOne .unlockSlot bs
  | 0x26 => parseBare .lockAll bs
  | 0x27 => parseBare .unlockAll bs
  | 0x28 => parseBare .freeze bs
  | 0x29 => parseOne (fun b => .setManagement (BitVec.ofNat 8 b)) bs
  | _ => none

/-! ### Writing payloads -/

/-- Two bytes of a number, the most significant first (R180). -/
def bytes16 (n : Nat) : List Nat := [n / 256 % 256, n % 256]

/-- Three bytes of a number (R184). -/
def bytes24 (n : Nat) : List Nat := [n / 65536 % 256, n / 256 % 256, n % 256]

/-- Four bytes of a number (R180). -/
def bytes32 (n : Nat) : List Nat := [n / 16777216 % 256, n / 65536 % 256, n / 256 % 256, n % 256]

/-- An optional one-byte field written when present. -/
def optByte : Option Nat → List Nat
  | none => []
  | some b => [b]

/-- An optional two-byte field written when present. -/
def optHalf : Option Nat → List Nat
  | none => []
  | some n => bytes16 n

/-- The bit of a presence byte for a field. -/
def presentBit (weight : Nat) (o : Option Nat) : Nat := if o.isSome then weight else 0

/-- An item's bytes (R182). -/
def itemBytes (i : RawItem) : List Nat :=
  [i.tag, i.source, i.timing, presentBit 1 i.gateLimit + presentBit 2 i.pgmAudio + presentBit 4 i.prmAudio] ++
    bytes16 i.duration ++ optHalf i.gateLimit ++ optByte i.pgmAudio ++ optByte i.prmAudio

/-- A rectangle's bytes (R183). -/
def rectBytes (r : Rect) : List Nat := bytes16 r.x ++ bytes16 r.y ++ bytes16 r.w ++ bytes16 r.h

/-- A colour's bytes (R183). -/
def colourBytes (c : Colour) : List Nat := bytes16 c.luma ++ bytes16 c.cb ++ bytes16 c.cr

/-- A label with its length byte, FFh where it is absent (R183). -/
def labelBytes : Option (List Nat) → List Nat
  | none => [0xFF]
  | some l => l.length :: l

/-- A template record's bytes (R183). -/
def templateBytes (t : RawTemplate) : List Nat :=
  labelBytes t.label ++ rectBytes t.pgmTarget ++ rectBytes t.prmStart ++ rectBytes t.prmTarget ++
    [t.layering, t.mIn, t.mOut, t.easeIn, t.easeOut] ++ colourBytes t.backing ++ [t.borderWidth] ++
    colourBytes t.borderColour ++ [t.pgmAudio, t.prmAudio]

/-- The fields SCHEDULE and CUE share, with the optional WATCH (R181). -/
def insertBytes (f : InsertFields) : List Nat :=
  [f.tag, f.slot, f.firstBank] ++ bytes16 f.credit ++ [f.endAction] ++ optByte f.watch

/-- The command kind of a command (R181). -/
def Command.kind : Command → Nat
  | .schedule _ _ => 0x01
  | .cue _ _ => 0x02
  | .delete _ => 0x03
  | .clearSchedule => 0x04
  | .setTolerance _ => 0x05
  | .endHold => 0x06
  | .extend => 0x07
  | .abort => 0x08
  | .openBank _ _ _ => 0x09
  | .items _ => 0x0A
  | .cancelLoad => 0x0B
  | .setUnit _ => 0x0C
  | .clearEvents _ => 0x0D
  | .readback _ _ _ => 0x0E
  | .resetArm _ => 0x0F
  | .reset _ => 0x10
  | .setTime _ => 0x20
  | .templateWrite _ _ => 0x21
  | .templateErase _ => 0x22
  | .protectSet _ => 0x23
  | .lockSlot _ => 0x24
  | .unlockSlot _ => 0x25
  | .lockAll => 0x26
  | .unlockAll => 0x27
  | .freeze => 0x28
  | .setManagement _ => 0x29

/-- The bytes from byte 2 on of a command's payload (R181). -/
def Command.bytes : Command → List Nat
  | .schedule start f => bytes32 start.toNat ++ insertBytes f
  | .cue offset f => bytes16 offset ++ insertBytes f
  | .delete start => bytes32 start.toNat
  | .setTolerance v => [v]
  | .openBank b n c => [b, n, c]
  | .items its => its.length :: its.flatMap itemBytes
  | .setUnit u => [u.primaryId, u.secondId, u.mask, u.allCall, u.consume]
  | .clearEvents mask => bytes16 mask.toNat
  | .readback t a b => [t, a, b]
  | .resetArm sc => [sc]
  | .reset sc => [sc]
  | .setTime v => bytes32 v.toNat
  | .templateWrite slot t => slot :: templateBytes t
  | .templateErase slot => [slot]
  | .protectSet r => [r.mode, r.side, r.sizeCode, r.complement, r.storedGuard]
  | .lockSlot slot => [slot]
  | .unlockSlot slot => [slot]
  | .setManagement f => [f.toNat]
  | .clearSchedule | .endHold | .extend | .abort | .cancelLoad | .lockAll | .unlockAll | .freeze => []

/-- The payload of a command addressed to a unit (R181). -/
def Command.payload (unit : Nat) (c : Command) : List Nat := unit :: c.kind :: c.bytes

/-! ### Codes of the status packet -/

/-- A flag as a bit of a weight. -/
def bitOf (weight : Nat) (b : Bool) : Nat := if b then weight else 0

/-- A layering's code (R183). -/
def Layering.code : Layering → Nat
  | .programmeOnTop => 0
  | .promoOnTop => 1

/-- An easing's code (R183). -/
def Easing.code : Easing → Nat
  | .linear => 0
  | .easeIn => 1
  | .easeOut => 2
  | .easeBoth => 3

/-- A source's code (R182). -/
def Source.code : Source → Nat
  | .prm1 => 0
  | .prm2 => 1
  | .backing => 2

/-- A stored template as a record to send (R183). -/
def Template.raw (t : Template) : RawTemplate :=
  { label := t.label, pgmTarget := t.pgmTarget, prmStart := t.prmStart, prmTarget := t.prmTarget,
    layering := t.layering.code, mIn := t.mIn, mOut := t.mOut, easeIn := t.easeIn.code, easeOut := t.easeOut.code,
    backing := t.backing, borderWidth := t.borderWidth, borderColour := t.borderColour, pgmAudio := t.pgmAudio,
    prmAudio := t.prmAudio }

/-- A stored item as an item to send: a GATED item has its gate limit as stored (R67, R182). -/
def Item.raw (i : Item) : RawItem :=
  { tag := i.tag, source := i.source.code
    timing := match i.timing with
      | .fixed => 0
      | .gated _ => 1
    duration := i.duration
    gateLimit := match i.timing with
      | .fixed => none
      | .gated limit => some limit
    pgmAudio := i.pgmAudio, prmAudio := i.prmAudio }

/-- A bank's number. -/
def BankId.code : BankId → Nat
  | .bank0 => 0
  | .bank1 => 1

/-- An end action's code (R181). -/
def EndAction.code : EndAction → Nat
  | .restore => 0
  | .takeover => 1

/-- An engine state's code (R184). -/
def EngineState.code : EngineState → Nat
  | .idle => 0
  | .armed => 1
  | .squeeze => 2
  | .held => 3
  | .release => 4
  | .takeover => 5
  | .promoFull => 6

/-- A bank state's code (R184). -/
def BankState.code : BankState → Nat
  | .empty => 0
  | .loading => 1
  | .ready => 2
  | .playing => 3
  | .spent => 4

/-- A phase's code (R184). -/
def Phase.code : Phase → Nat
  | .running => 0
  | .finished => 1
  | .exhausted => 2

/-- A request state's code (R184). -/
def RequestState.code : RequestState → Nat
  | .none => 0
  | .waiting => 1
  | .granted => 2

/-- A fetch state's code (R184). -/
def FetchState.code : FetchState → Nat
  | .none => 0
  | .queued => 1
  | .setAside => 2
  | .served => 3

/-- A result code's number (R181). -/
def ResultCode.code : ResultCode → Nat
  | .ok => 0x00
  | .sealed => 0x01
  | .badCommand => 0x02
  | .badField => 0x03
  | .busy => 0x04
  | .full => 0x05
  | .duplicate => 0x06
  | .late => 0x07
  | .conflict => 0x08
  | .notFound => 0x09
  | .wrongState => 0x0A
  | .noContext => 0x0B
  | .badCount => 0x0C
  | .protectedSlot => 0x0D
  | .guarded => 0x0E
  | .frozen => 0x0F
  | .notManager => 0x10
  | .notArmed => 0x11

/-- The strap code of a frame rate (R147, R184). -/
def rateCode : FrameRate → Nat
  | .r25 => 0
  | .r29 => 1
  | .r50 => 2
  | .r59 => 3

/-- The code of a match (R184). -/
def matchCode : Match → Nat
  | .primary => 0
  | .secondary => 1
  | .allCall => 2

/-- An outcome's code (R184). -/
def JunctionOutcome.code : JunctionOutcome → Nat
  | .completedRestore => 1
  | .completedTakeover => 2
  | .aborted => 3
  | .missedBusy => 4
  | .missedNoScaler => 5
  | .missedTimeJump => 6

/-- An end cause's code (R184). -/
def EndCause.code : EndCause → Nat
  | .abort => 1
  | .endCommand => 2
  | .creditTimer => 3
  | .watch => 4
  | .listEnd => 5

/-- A guard state's code (R184). -/
def GuardState.code : GuardState → Nat
  | .opened => 0
  | .guarded => 1
  | .frozen => 2

/-! ### The status packet -/

/-- The validity of the three inputs of a channel in the frame built (R158). -/
structure Validity where
  pgm : Bool
  prm1 : Bool
  prm2 : Bool
  deriving DecidableEq, Repr

/-- The validity of the inputs of a frame (R155). -/
def frameValidity (rate : FrameRate) (inp : FrameInputs) : Validity :=
  { pgm := inputValid rate inp.pgm, prm1 := inputValid rate inp.promo.prm1,
    prm2 := inputValid rate inp.promo.prm2 }

/-- The place of a channel in a list, from 1; 0 where it is not in it. -/
def placeIn (ch : Channel) (l : List Channel) : Nat := if ch ∈ l then l.idxOf ch + 1 else 0

/-- Bytes 2 to 6: the counter and the inputs (R158). -/
def refBytes (r : RefCounter) (v : Validity) : List Nat :=
  bytes32 r.sfc.toNat ++
    [bitOf 1 r.refLost + 2 * rateCode r.rate + bitOf 8 v.pgm + bitOf 16 v.prm1 + bitOf 32 v.prm2]

/-- Whether the engine reports its move counters, which are 0 in the other states (R21). -/
def EngineState.moving : EngineState → Bool
  | .squeeze | .release | .takeover => true
  | .idle | .armed | .held | .promoFull => false

/-- Bytes 7 to 18: the engine (R21). -/
def engineBytes (e : Engine) : List Nat :=
  [e.state.code, if e.state.moving then e.k else 0, if e.state.moving then e.m else 0,
    bitOf 1 e.record.isSome + bitOf 2 e.credit.isSome + bitOf 4 e.watch.isSome,
    (e.record.map (·.tag)).getD 0] ++
    bytes32 ((e.record.map (·.start.toNat)).getD 0) ++ bytes16 (e.credit.getD 0) ++ [e.watch.getD 0]

/-- Bytes 19 to 22: the request record, with the place in the queue as ordered against the SFC (R91, R100). -/
def requestBytes (p : Pool) (sfc : FrameValue) (ch : Channel) : List Nat :=
  let r := p.records.get ch
  [r.state.code, r.requested, r.granted, if r.state = .waiting then placeIn ch (p.ordered sfc p.queue) else 0]

/-- Bytes 23 and 24: the fetch state (R118). -/
def fetchBytes (l : Library) (ch : Channel) (f : FetchState) : List Nat :=
  [f.code, if f = .queued then placeIn ch (l.fetchQueue.map Fetch.channel) else 0]

/-- Bytes 25 to 31: the schedule (R1, R7). -/
def scheduleBytes (s : Schedule) : List Nat :=
  [s.entries.length, s.tolerance, (s.entries.head?.map Entry.tag).getD 0] ++
    bytes32 ((s.entries.head?.map (·.start.toNat)).getD 0)

/-- Three bytes of a bank (R87). -/
def bankBytes (b : Bank) : List Nat := [b.state.code, bitOf 1 b.chain, b.items.length]

/-- Bytes 38 to 40: the load context (R87). -/
def contextBytes : Option LoadContext → List Nat
  | none => [0, 0, 0]
  | some x => [1 + 2 * x.bank.code, x.remaining, x.countdown]

/-- Bytes 41 to 46: the play position, FFh for none or absent (R87). -/
def playBytes (p : PromoList) : List Nat :=
  [(p.play.bank.map BankId.code).getD 0xFF, (p.play.cursor.map Cursor.index).getD 0xFF,
    (p.current.map Item.tag).getD 0xFF, (p.play.cursor.map fun c => c.phase.code).getD 0xFF] ++
    bytes16 ((p.play.cursor.map Cursor.duration).getD 0)

/-- Bytes 47 to 61: holds and gains (R145). -/
def composerBytes (c : Composer) : List Nat :=
  [c.pgmHold.counter, c.promoHold.counter,
    bitOf 1 c.pgmHold.picture.isSome + bitOf 2 c.promoHold.picture.isSome + bitOf 4 c.gP.position.isSome +
      bitOf 8 c.gR.position.isSome] ++
    bytes24 c.gP.present ++ bytes24 c.gP.target ++ bytes24 c.gR.present ++ bytes24 c.gR.target

/-- Byte 65: the reset arm (R174). -/
def armByte : Option ResetArm → Nat
  | none => 0
  | some a => (match a.scope with | .channel => 1 | .part => 2) + 16 * a.window

/-- Bytes 62 to 65: the parser (R174). -/
def parserBytes (p : Parser) (m : PerChannel Bool) : List Nat :=
  [p.addressing.secondId.toNat, p.addressing.mask.toNat,
    bitOf 1 p.addressing.allCall + bitOf 2 p.addressing.consume + bitOf 16 m.a + bitOf 32 m.b + bitOf 64 m.c +
      bitOf 128 m.d,
    armByte p.arm]

/-- Three bytes of a result entry (R176). -/
def resultBytes (e : ResultEntry) : List Nat := [e.kind, e.code.code, matchCode e.how]

/-- A list of bytes made up to a length with zeros. -/
def padTo (n : Nat) (l : List Nat) : List Nat := l ++ List.replicate (n - l.length) 0

/-- Bytes 81 to 91: the last-junction record (R178). -/
def lastBytes : Option LastJunction → List Nat
  | none => List.replicate 11 0
  | some l =>
    [l.outcome.code, l.tag] ++ bytes32 l.start.toNat ++
      [(l.endCause.map EndCause.code).getD 0, l.itemsPlayed, bitOf 1 l.fallbackUsed, l.scalersGranted,
        l.latenessTaken]

/-- Bytes 66 to 91: the status reporter but for its readback section (R176 to R178). -/
def reporterBytes (r : Reporter) : List Nat :=
  bytes16 r.flags.toNat ++ [r.results.length + bitOf 128 r.omitted] ++ padTo 12 (r.results.flatMap resultBytes) ++
    lastBytes r.last

/-- An operation's kind code (R184). -/
def Operation.code : Operation → Nat
  | .write _ _ => 1
  | .erase _ => 2
  | .protectSet _ => 3

/-- Bytes 92 to 96: the library (R118). -/
def libraryBytes (l : Library) : List Nat :=
  (match l.operation with
    | none => [0, 0, 0, 0]
    | some fl => [fl.op.code, (fl.op.slot.map fun i => i.val + 1).getD 0, fl.progress, fl.op.length]) ++
    [bitOf 1 l.suspended + bitOf 2 l.storeFail]

/-- The slot locks as a number, bit 0 slot 1 (R184). -/
def lockNumber (locks : Vector Bool 32) : Nat :=
  ((List.finRange 32).map fun i => bitOf (2 ^ i.val) (locks.get i)).sum

/-- Bytes 97 to 102: the protection state (R132). -/
def protectionBytes (p : LibraryProtection) : List Nat :=
  [bitOf 1 (decide (p.record.mode = .individual)) + bitOf 2 (decide (p.record.side = .high)) +
      4 * p.record.sizeCode + bitOf 32 p.record.complement + bitOf 64 (decide (p.record.storedGuard = .guarded)),
    p.guardState.code + bitOf 16 p.libguard] ++ bytes32 (lockNumber p.locks)

/-- The content of a readback (R184). -/
def Readback.content : Readback → List Nat
  | .template _ .blank => [0]
  | .template _ (.valid t) => 1 :: templateBytes t.raw
  | .template _ .invalid => [2]
  | .template _ .underOperation => [3]
  | .entry _ e =>
    bytes32 e.start.toNat ++ [e.tag, e.slot, e.firstBank.code] ++ bytes16 e.credit ++
      [e.endAction.code, e.watch.getD 0, bitOf 1 e.late, e.lateness]
  | .item _ _ i => itemBytes i.raw

/-- The target kind and keys of a readback; key b is 0 where it is ignored (R180, R184). -/
def Readback.keys : Readback → List Nat
  | .template slot _ => [0, slot, 0]
  | .entry index _ => [1, index, 0]
  | .item bank index _ => [2, bank.code, index]

/-- Bytes 103 on: the readback section (R179, R184). -/
def readbackBytes : Option Readback → List Nat
  | none => [0xFF, 0, 0, 0]
  | some r => r.keys ++ [r.content.length] ++ r.content

/-- The payload of the status packet of a channel (R184). -/
def statusPayload (ch : Channel) (v : Validity) (s : State) : List Nat :=
  let c := s.chan ch
  [c.parser.addressing.primaryId.toNat, channelIndex ch] ++ refBytes s.ref v ++ engineBytes c.engine ++
    requestBytes s.pool s.ref.sfc ch ++ fetchBytes s.library ch c.fetch ++ scheduleBytes c.schedule ++
    bankBytes c.promo.bank0 ++ bankBytes c.promo.bank1 ++ contextBytes c.parser.context ++ playBytes c.promo ++
    composerBytes c.composer ++ parserBytes c.parser s.management ++ reporterBytes c.reporter ++
    libraryBytes s.library ++ protectionBytes s.protection ++ readbackBytes c.reporter.readback

/-- The status packet of a channel, on line 12 (R175, R180). -/
def statusPacket (ch : Channel) (v : Validity) (s : State) : AncPacket :=
  { line := Config.statusLine, words := gosmaraWords 0x52 0x22 (statusPayload ch v s) }

/-- A packet put ahead of the first packet of its line or a later one (R175). -/
def insertAhead (p : AncPacket) : List AncPacket → List AncPacket
  | [] => [p]
  | q :: rest => if p.line ≤ q.line then p :: q :: rest else q :: insertAhead p rest

/-- A packet put after the packets of its line and of earlier ones, so that packets keep their own order. -/
def insertAfter (p : AncPacket) : List AncPacket → List AncPacket
  | [] => [p]
  | q :: rest => if p.line < q.line then p :: q :: rest else q :: insertAfter p rest

/-- A built frame with a change of its ancillary packets. -/
def Output.modBuilt (o : Output) (f : List AncPacket → List AncPacket) : Output :=
  { o with built := o.built.map fun b => { b with anc := f b.anc } }

/-- The Status Reporter's work at a channel frame event: the status packet is built and inserted, and the result list
and the readback section are emptied (R175, R176, R179). -/
def statusWork (ch : Channel) (v : Validity) (s : State) : State :=
  let p := statusPacket ch v s
  s.modChan ch fun c =>
    { c with
      output := c.output.modBuilt (insertAhead p)
      reporter := { c.reporter with results := [], omitted := false, readback := none } }

end Sys2Proof.Machine
end

