-- ==== Sys2Proof/Machine/Packets.lean ====
section
/-!
DEFINITION. PACKET_ARRIVAL (chapter 10): how an ancillary packet is classed, matched and taken, and what becomes of
it on OUT-x.
-/

namespace Sys2Proof.Machine

/-- How a unit ID matches addressing settings, if it does (R163). -/
def Addressing.matches (a : Addressing) (unit : Nat) : Option Match :=
  let id := BitVec.ofNat 8 unit
  if unit = 0 then (if a.allCall then some .allCall else none)
  else if id &&& a.mask = a.primaryId &&& a.mask then some .primary
  else if a.secondId ≠ 0 ∧ a.secondId = id then some .secondary
  else none

/-- A command taken by the parser of a channel and handed to its owning block (stages 6 and 7 of R161). -/
def runCommand (ch : Channel) (m : Match) (c : Command) (s : State) : State :=
  match c with
  | .schedule start f => takeSchedule ch m start f s
  | .cue offset f => takeCue ch m offset f s
  | .delete start => takeDelete ch m start s
  | .clearSchedule => takeClearSchedule ch m s
  | .setTolerance v => takeSetTolerance ch m v s
  | .endHold => takeEnd ch m s
  | .extend => takeExtend ch m s
  | .abort => takeAbort ch m s
  | .openBank b n f => takeOpenBank ch m b n f s
  | .items its => takeItems ch m its s
  | .cancelLoad => takeCancelLoad ch m s
  | .setUnit u => takeSetUnit ch m u s
  | .clearEvents mask => takeClearEvents ch m mask s
  | .readback t a b => takeReadback ch m t a b s
  | .resetArm sc => takeResetArm ch m sc s
  | .reset sc => takeReset ch m sc s
  | .setTime v => takeSetTime ch m v s
  | .templateWrite slot t => takeTemplateWrite ch m slot t s
  | .templateErase slot => takeTemplateErase ch m slot s
  | .protectSet r => takeProtectSet ch m r s
  | .lockSlot slot => takeLockSlot ch m slot s
  | .unlockSlot slot => takeUnlockSlot ch m slot s
  | .lockAll => takeLockAll ch m s
  | .unlockAll => takeUnlockAll ch m s
  | .freeze => takeFreeze ch m s
  | .setManagement f => takeSetManagement ch m f s

/-- A matched payload from stage 5 of R161 on, by the bytes after the unit ID: a payload with no command kind, an
unknown kind or a length not allowed is answered BAD_COMMAND (R165). A payload with no kind is reported as kind 0
(R176). -/
def takePayload (ch : Channel) (m : Match) (rest : List Nat) (s : State) : State :=
  match rest with
  | [] => badCommand ch 0 m s
  | kind :: bs =>
    match parseCommand kind bs with
    | none => badCommand ch kind m s
    | some c => runCommand ch m c s

/-- What stages 2 to 4 of R161 make of a counted packet: it passes, it is skipped, or it is taken with its match and
the payload after the unit ID. -/
inductive Handling
  | passes
  | skipped
  | taken (m : Match) (rest : List Nat)
  deriving DecidableEq, Repr

/-- Stages 2 to 4 of R161 (R162, R163, R166). -/
def Parser.handling (p : Parser) (ws : List Word10) : Handling :=
  match checkedPayload ws with
  | some (unit :: rest) =>
    match p.addressing.matches unit with
    | none => .passes
    | some m => if p.skip then .skipped else .taken m rest
  | _ => .passes

/-- A packet reaching OUT-x: with the frame still to be built, or, once the channel frame event of its input frame
has been taken, in the frame built at it (R153, R164; log entry 19). -/
def Output.pass (o : Output) (afterFrameEvent : Bool) (p : AncPacket) : Output :=
  match afterFrameEvent, o.built with
  | true, some _ => o.modBuilt (insertAfter p)
  | _, _ => { o with passed := o.passed ++ [p] }

/-- A packet of PGM-x reaching OUT-x. -/
def passPacket (ch : Channel) (arr : Arrival) (s : State) : State :=
  s.modChan ch fun c => { c with output := c.output.pass arr.afterFrameEvent arr.packet }

/-- A matched packet on OUT-x: removed when consume was ON at its arrival (R164). -/
def passUnlessConsumed (ch : Channel) (arr : Arrival) (consume : Bool) (s : State) : State :=
  if consume then s else passPacket ch arr s

/-- A parser at the first ancillary packet of a new input frame: packet count 0, skip flag CLEAR (R161, R166). -/
def Parser.newFrame (p : Parser) : Parser := { p with packetCount := 0, skip := false }

/-- A control packet through the stages of R161. -/
def controlArrival (ch : Channel) (arr : Arrival) (s : State) : State :=
  let p := (s.chan ch).parser
  if Config.packetLimit ≤ p.packetCount then passPacket ch arr (s.raise ch .packetLimit)
  else
    let s1 := s.modParser ch ({ · with packetCount := p.packetCount + 1 })
    match p.handling arr.packet.words with
    | .passes => passPacket ch arr s1
    | .skipped => passUnlessConsumed ch arr p.addressing.consume s1
    | .taken m rest => passUnlessConsumed ch arr p.addressing.consume (takePayload ch m rest s1)

/-- An ancillary packet of a valid frame in the vertical blanking: classed and handled (R160). -/
def blankingArrival (ch : Channel) (arr : Arrival) (s : State) : State :=
  let s1 := if arr.first then s.modParser ch (·.newFrame) else s
  match classify arr.packet.words with
  | .control => controlArrival ch arr s1
  | .status => passPacket ch arr s1
  | .other => passPacket ch arr s1

/-- A packet stands in the vertical blanking, lines 1 to 41 (R160). -/
def inBlanking (p : AncPacket) : Bool := decide (1 ≤ p.line) && decide (p.line ≤ Config.lastBlankingLine)

/-- PACKET_ARRIVAL: a packet of an invalid frame gives no arrival, and one outside the vertical blanking goes to
OUT-x with no arrival (R160). -/
def packetWork (ch : Channel) (arr : Arrival) (s : State) : State :=
  if !arr.valid then s
  else if inBlanking arr.packet then blankingArrival ch arr s
  else passPacket ch arr s

/-- PACKET_ARRIVAL (R161). -/
def execPacketArrival (ch : Channel) (arr : Arrival) (s : State) : Host.Outcome State Fault Refusal :=
  .next (packetWork ch arr s)

end Sys2Proof.Machine
end

