-- ==== Sys2Proof/Machine/Frames.lean ====
section
/-!
DEFINITION. CHANNEL_FRAME_EVENT (R153): the work of every block of a channel at its channel frame event, in the order
log entry 20 gives.
-/

namespace Sys2Proof.Machine

/-- The junction is cut to passthrough at this event (R135). -/
def FrameEnd.isCut : FrameEnd → Bool
  | .cut _ => true
  | .goes | .ends _ => false

/-- What the Promo List and the engine of a running junction make of one event. -/
structure Turn where
  list : PromoList
  report : ListReport
  result : EngineResult
  /-- The frame built carries a promo window, so that a FINISHED item's successor starts (R80). -/
  carriesPromo : Bool
  deriving DecidableEq, Repr

/-- The turn of a running junction at an event. A FINISHED item's successor starts unless the frame is passthrough
(R80), and the engine judges the items remaining on the list as the event leaves it (R84). Where the frame is passthrough
only because of what that successor would do, the free value of log entry 4 says whether the junction restores. -/
def ChannelState.turn (c : ChannelState) (v : PromoValidity) : Turn :=
  let played := c.promo.work c.engine.state true v
  let stayed := c.promo.work c.engine.state false v
  let r := c.engine.work played.1.itemsRemain c.emptyList
  let r' := c.engine.work stayed.1.itemsRemain c.emptyList
  if r.ending.isCut then
    if r'.ending.isCut || Config.restoresOnDoomedSuccessor then
      { list := stayed.1, report := stayed.2, result := r, carriesPromo := false }
    else { list := played.1, report := played.2, result := r', carriesPromo := true }
  else { list := played.1, report := played.2, result := r, carriesPromo := true }

/-- The event marks LIST_END: it finds the list exhausted, takes no end cause and does not end the junction (R37). -/
def Turn.marks (t : Turn) : Bool := t.report.exhausted && !t.result.tookCause && !t.result.ending.isCut

/-- The Promo List's own side of a turn: the list as the event leaves it, what it tells its neighbours, and LIST_END
marked (R37, R80 to R84). -/
def ChannelState.takeList (c : ChannelState) (t : Turn) : ChannelState := (c.withList t.list t.report).markIf t.marks

/-- The engine and the Promo List of a running junction at an event, and how the junction goes on. -/
def ChannelState.runOn (c : ChannelState) (v : PromoValidity) : ChannelState × FrameEnd :=
  let t := c.turn v
  ((c.withEngine t.result.engine).takeList t, t.result.ending)

/-- The count of the current item at an event that takes no end cause, with LIST_END marked for an exhaustion (R37, R78,
R79). -/
def ChannelState.countItem (c : ChannelState) (v : PromoValidity) : ChannelState :=
  let counted := c.promo.count v
  (c.withList counted.1 counted.2).markIf counted.2.exhausted

/-- The junction's work at a channel frame event, with the frame its blocks hand to the composer (R26, R31, R135). The
last frame of a RELEASE is built with the junction's settings, before the junction end returns them (R41). The first
item counts at the start event; that one which reaches 0 there, at an event taken in ARMED, finishes or exhausts the
list by R82 and R83 all the same is the model's choice (log entry 32). So is that an entry armed since an ABORT or a
reset takes its start event here with the junction's first frame, where R44 and R47 call the next frame built
passthrough (log entry 34). -/
def junctionFrame (ch : Channel) (v : PromoValidity) (s : State) : State × FrameView :=
  match (s.chan ch).engine.state with
  | .idle => (s, .passthrough)
  | .armed =>
    if startDue ch s then
      match startEvent ch s with
      | (s1, .goes) =>
        let s2 := s1.modChan ch (·.countItem v)
        (s2, (s2.chan ch).view)
      | (s1, fe) => (finishEnd ch fe s1, .passthrough)
    else (s, .passthrough)
  | _ =>
    match (s.chan ch).runOn v with
    | (c, .goes) => (s.setChan ch c, c.view)
    | (c, .cut o) => (junctionEnd ch o (s.setChan ch c), .passthrough)
    | (c, .ends o) => (junctionEnd ch o (s.setChan ch c), c.view)

/-- A channel frame event: the promo inputs judged, the load context, the reset arm, the junction, the arm test, the miss
sweep, the composer, the status packet (R14, R16, R76, R153, R155, R171, R175). -/
def channelFrame (ch : Channel) (offered : FrameInputs) (s : State) : State :=
  let inp := s.inputs offered
  let s1 := armWork ch (loadWork ch (s.judge offered.promo))
  let (s2, view) := junctionFrame ch (promoValidity s.ref.rate inp.promo) s1
  let s3 := missSweep ch (armTest ch s2)
  statusWork ch (frameValidity s.ref.rate inp) (composerWork ch inp view s3)

/-- CHANNEL_FRAME_EVENT (R153). -/
def execChannelFrameEvent (ch : Channel) (inp : FrameInputs) (s : State) : Host.Outcome State Fault Refusal :=
  .next (channelFrame ch inp s)

end Sys2Proof.Machine
end

