-- ==== Sys2Proof/Machine/Events.lean ====
section
/-!
DEFINITION. The rows of the table that name something which comes about inside another event. Each runs the owning
block's own work at an event that brings it about, and changes nothing where the block's state does not bring it
about (log entry 2).
-/

namespace Sys2Proof.Machine

/-- SCALER_GRANT: the grant test (R92). -/
def execScalerGrant (s : State) : Host.Outcome State Fault Refusal := .next (grantTest s)

/-- The engine's work at an event, where the event comes about. -/
def engineWorkIf (b : Bool) (ch : Channel) (s : State) : State := if b then engineWork ch s else s

/-- START_EVENT: the engine's work at an event that finds the armed start frame not ahead of the SFC (R26). -/
def execStartEvent (ch : Channel) (s : State) : Host.Outcome State Fault Refusal :=
  .next (engineWorkIf (startDue ch s) ch s)

/-- The states in which an end cause is looked for (R38). -/
def EngineState.endable : EngineState → Bool
  | .squeeze | .held => true
  | .idle | .armed | .release | .takeover | .promoFull => false

/-- CREDIT_TIMER_EXPIRY: the engine's work at an event in SQUEEZE or HELD that brings the credit counter to 0
(R33). -/
def execCreditTimerExpiry (ch : Channel) (s : State) : Host.Outcome State Fault Refusal :=
  let e := (s.chan ch).engine
  .next (engineWorkIf (e.state.endable && expires e.credit) ch s)

/-- WATCH_EXPIRY: the engine's work at an event in HELD that brings the watch counter to 0 (R34). -/
def execWatchExpiry (ch : Channel) (s : State) : Host.Outcome State Fault Refusal :=
  let e := (s.chan ch).engine
  .next (engineWorkIf (decide (e.state = .held) && expires e.watch) ch s)

/-- END_CAUSE_TAKEN: the engine's work at an event in SQUEEZE or HELD that finds an end cause (R38 to R40). -/
def execEndCauseTaken (ch : Channel) (s : State) : Host.Outcome State Fault Refusal :=
  let e := (s.chan ch).engine
  .next (engineWorkIf (e.state.endable && e.causeAt.isSome) ch s)

/-- SQUEEZE_MOVE_END: the engine's work at an event in SQUEEZE that takes no end cause and brings k to M_in (R32). -/
def execSqueezeMoveEnd (ch : Channel) (s : State) : Host.Outcome State Fault Refusal :=
  let e := (s.chan ch).engine
  .next (engineWorkIf (decide (e.state = .squeeze) && e.causeAt.isNone && decide (e.m ≤ e.k + 1)) ch s)

/-- RELEASE_MOVE_END: the engine's work at an event in RELEASE that brings k to M (R41). -/
def execReleaseMoveEnd (ch : Channel) (s : State) : Host.Outcome State Fault Refusal :=
  let e := (s.chan ch).engine
  .next (engineWorkIf (decide (e.state = .release) && decide (e.m ≤ e.k + 1)) ch s)

/-- TAKEOVER_MOVE_END: the engine's work at an event in TAKEOVER without LIST_END that brings k to M_out (R42). -/
def execTakeoverMoveEnd (ch : Channel) (s : State) : Host.Outcome State Fault Refusal :=
  let e := (s.chan ch).engine
  .next
    (engineWorkIf (decide (e.state = .takeover) && decide (e.marker ≠ some .listEnd) && decide (e.m ≤ e.k + 1)) ch s)

/-- TAKEOVER_LIST_END: the engine's work at an event in TAKEOVER that finds LIST_END (R42). -/
def execTakeoverListEnd (ch : Channel) (s : State) : Host.Outcome State Fault Refusal :=
  let e := (s.chan ch).engine
  .next (engineWorkIf (decide (e.state = .takeover) && decide (e.marker = some .listEnd)) ch s)

/-- PROMO_FULL_END: the engine's work at an event in PROMO_FULL that finds END or LIST_END (R43). -/
def execPromoFullEnd (ch : Channel) (s : State) : Host.Outcome State Fault Refusal :=
  let e := (s.chan ch).engine
  .next (engineWorkIf (decide (e.state = .promoFull) && e.marker.isSome) ch s)

/-- The current item's cursor after the count of one more frame, where an item is RUNNING (R78, R79). -/
def PromoList.nextCount (p : PromoList) (v : PromoValidity) : Option Cursor :=
  match p.play.bank, p.play.cursor, p.current with
  | some _, some cur, some i => if cur.phase = .running then some (cur.tick (i.source.valid v)) else none
  | _, _, _ => none

/-- The cursor counted at a channel frame event whose state advances items: that of the current item, or of the
successor that starts at the event (R78 to R81). -/
def ChannelState.nextCount (c : ChannelState) (v : PromoValidity) : Option Cursor :=
  if c.engine.state.advancesItems then
    (if (c.turn v).carriesPromo then c.promo.successor.1 else c.promo).nextCount v
  else none

/-- The Promo List's own work at an event of a running junction, where the event comes about (R78 to R83). -/
def listWorkIf (b : Bool) (ch : Channel) (offered : PromoFrames) (v : PromoValidity) (s : State) : State :=
  if b then (s.judge offered).modChan ch fun c => c.takeList (c.turn v) else s

/-- ITEM_DURATION_EXPIRY: the list's work at an event that brings the duration counter to 0 (R78, R79). -/
def execItemDurationExpiry (ch : Channel) (offered : PromoFrames) (s : State) : Host.Outcome State Fault Refusal :=
  let v := promoValidity s.ref.rate (s.promoFrames offered)
  .next (listWorkIf (((s.chan ch).nextCount v).any fun c => decide (c.duration = 0)) ch offered v s)

/-- GATE_LIMIT_EXPIRY: the list's work at an event that brings the gate counter to 0 (R79). -/
def execGateLimitExpiry (ch : Channel) (offered : PromoFrames) (s : State) : Host.Outcome State Fault Refusal :=
  let v := promoValidity s.ref.rate (s.promoFrames offered)
  .next (listWorkIf (((s.chan ch).nextCount v).any fun c => decide (c.gate = some 0)) ch offered v s)

/-- A FINISHED item's successor starts at this event, or its swap fails: the engine's state advances items and the frame
built carries a promo window (R80, R82). -/
def ChannelState.leavesItem (c : ChannelState) (v : PromoValidity) : Bool :=
  c.engine.state.advancesItems && decide (c.promo.play.cursor.map Cursor.phase = some .finished) &&
    (c.turn v).carriesPromo

/-- SUCCESSOR_START: the list's work at an event at which the successor of a FINISHED item starts (R80). -/
def execSuccessorStart (event : ListEvent) (s : State) : Host.Outcome State Fault Refusal :=
  let v := promoValidity s.ref.rate (s.promoFrames event.offered)
  .next (listWorkIf ((s.chan event.channel).leavesItem v) event.channel event.offered v s)

/-- A window's source is lost in a frame: it is present and on an input that is invalid (R139, R140). -/
def FrameView.lost (view : FrameView) (rate : FrameRate) (inp : FrameInputs) : Window → Bool
  | .programme => view.pgm.isSome && !inputValid rate inp.pgm
  | .promo =>
    view.promo.isSome &&
      match view.item.map Item.source with
      | some .prm1 => !inputValid rate inp.promo.prm1
      | some .prm2 => !inputValid rate inp.promo.prm2
      | some .backing => false
      | none => false

/-- The hold of a window. -/
def Composer.hold (c : Composer) : Window → Hold
  | .programme => c.pgmHold
  | .promo => c.promoHold

/-- The composer's work at an event, on the frame the channel's blocks hand it, where the event comes about. -/
def composerWorkIf (b : Bool) (ch : Channel) (offered : FrameInputs) (s : State) : State :=
  if b then composerWork ch (s.inputs offered) (s.chan ch).view (s.judge offered.promo) else s

/-- SOURCE_HOLD_EXPIRY: the composer's work at an event that brings a window's hold counter to 6 (R139, R140). -/
def execSourceHoldExpiry (ch : Channel) (w : Window) (offered : FrameInputs) (s : State) :
    Host.Outcome State Fault Refusal :=
  let c := s.chan ch
  .next
    (composerWorkIf
      (c.view.lost s.ref.rate (s.inputs offered) w && decide ((c.composer.hold w).counter + 1 = Config.holdLimit)) ch
      offered s)

/-- A gain of the mix. -/
def Composer.gain (c : Composer) : GainName → Gain
  | .gP => c.gP
  | .gR => c.gR

/-- A gain's ramp ends within a number of samples (R143). -/
def Gain.endsWithin (g : Gain) (n : Nat) : Bool := g.position.isSome && (g.after n).position.isNone

/-- GAIN_RAMP_END: the composer's work at an event in whose frame a gain's ramp ends (R143). -/
def execGainRampEnd (ch : Channel) (g : GainName) (offered : FrameInputs) (s : State) :
    Host.Outcome State Fault Refusal :=
  let c := s.chan ch
  .next
    (composerWorkIf (((c.composer.retargeted c.view).gain g).endsWithin (frameSamples s.ref.rate offered)) ch offered s)

end Sys2Proof.Machine
end

