-- ==== Sys2Proof/Machine/Dispatch.lean ====
section
/-!
DEFINITION. The dispatch: one arm for each command and event of spec/opcode_table.json, one meaning for each arm.
-/

namespace Sys2Proof.Machine

/-- The effect of a command on everything but the queue. -/
def exec (i : Instr) (s : State) : Host.Outcome State Fault Refusal :=
  match i with
  | .powerOn frs1 frs0 => Sys2Proof.Machine.execPowerOn frs1 frs0 s
  | .referenceFrameEvent => Sys2Proof.Machine.execReferenceFrameEvent s
  | .refLoss => Sys2Proof.Machine.execRefLoss s
  | .refFrameStart start sinceEvent => Sys2Proof.Machine.execRefFrameStart start sinceEvent s
  | .refQualifyMiss sinceEvent => Sys2Proof.Machine.execRefQualifyMiss sinceEvent s
  | .channelFrameEvent ch inp => Sys2Proof.Machine.execChannelFrameEvent ch inp s
  | .libraryFrameEvent => Sys2Proof.Machine.execLibraryFrameEvent s
  | .operationComplete => Sys2Proof.Machine.execOperationComplete s
  | .fetchServed ch => Sys2Proof.Machine.execFetchServed ch s
  | .packetArrival ch arr => Sys2Proof.Machine.execPacketArrival ch arr s
  | .schedule ch m start f => Sys2Proof.Machine.execSchedule ch m start f s
  | .cue ch m offset f => Sys2Proof.Machine.execCue ch m offset f s
  | .delete ch m start => Sys2Proof.Machine.execDelete ch m start s
  | .clearSchedule ch m => Sys2Proof.Machine.execClearSchedule ch m s
  | .setTolerance ch m value => Sys2Proof.Machine.execSetTolerance ch m value s
  | .endHold ch m => Sys2Proof.Machine.execEnd ch m s
  | .extend ch m => Sys2Proof.Machine.execExtend ch m s
  | .abort ch m => Sys2Proof.Machine.execAbort ch m s
  | .openBank ch m bank count chain => Sys2Proof.Machine.execOpenBank ch m bank count chain s
  | .items ch m its => Sys2Proof.Machine.execItems ch m its s
  | .cancelLoad ch m => Sys2Proof.Machine.execCancelLoad ch m s
  | .setUnit ch m u => Sys2Proof.Machine.execSetUnit ch m u s
  | .clearEvents ch m mask => Sys2Proof.Machine.execClearEvents ch m mask s
  | .readback ch m target keyA keyB => Sys2Proof.Machine.execReadback ch m target keyA keyB s
  | .resetArm ch m scope => Sys2Proof.Machine.execResetArm ch m scope s
  | .reset ch m scope => Sys2Proof.Machine.execReset ch m scope s
  | .resetArmExpiry ch => Sys2Proof.Machine.execResetArmExpiry ch s
  | .setTime ch m value => Sys2Proof.Machine.execSetTime ch m value s
  | .templateWrite ch m slot t => Sys2Proof.Machine.execTemplateWrite ch m slot t s
  | .templateErase ch m slot => Sys2Proof.Machine.execTemplateErase ch m slot s
  | .protectSet ch m r => Sys2Proof.Machine.execProtectSet ch m r s
  | .lockSlot ch m slot => Sys2Proof.Machine.execLockSlot ch m slot s
  | .unlockSlot ch m slot => Sys2Proof.Machine.execUnlockSlot ch m slot s
  | .lockAll ch m => Sys2Proof.Machine.execLockAll ch m s
  | .unlockAll ch m => Sys2Proof.Machine.execUnlockAll ch m s
  | .freeze ch m => Sys2Proof.Machine.execFreeze ch m s
  | .setManagement ch m flags => Sys2Proof.Machine.execSetManagement ch m flags s
  | .libguardChange asserted => Sys2Proof.Machine.execLibguardChange asserted s
  | .arm ch => Sys2Proof.Machine.execArm ch s
  | .scalerGrant => Sys2Proof.Machine.execScalerGrant s
  | .missedBusy ch => Sys2Proof.Machine.execMissedBusy ch s
  | .startEvent ch => Sys2Proof.Machine.execStartEvent ch s
  | .creditTimerExpiry ch => Sys2Proof.Machine.execCreditTimerExpiry ch s
  | .watchExpiry ch => Sys2Proof.Machine.execWatchExpiry ch s
  | .endCauseTaken ch => Sys2Proof.Machine.execEndCauseTaken ch s
  | .squeezeMoveEnd ch => Sys2Proof.Machine.execSqueezeMoveEnd ch s
  | .releaseMoveEnd ch => Sys2Proof.Machine.execReleaseMoveEnd ch s
  | .takeoverMoveEnd ch => Sys2Proof.Machine.execTakeoverMoveEnd ch s
  | .takeoverListEnd ch => Sys2Proof.Machine.execTakeoverListEnd ch s
  | .promoFullEnd ch => Sys2Proof.Machine.execPromoFullEnd ch s
  | .itemDurationExpiry ch offered => Sys2Proof.Machine.execItemDurationExpiry ch offered s
  | .gateLimitExpiry ch offered => Sys2Proof.Machine.execGateLimitExpiry ch offered s
  | .successorStart event => Sys2Proof.Machine.execSuccessorStart event s
  | .loadTimeout ch => Sys2Proof.Machine.execLoadTimeout ch s
  | .sourceHoldExpiry ch w inp => Sys2Proof.Machine.execSourceHoldExpiry ch w inp s
  | .gainRampEnd ch g inp => Sys2Proof.Machine.execGainRampEnd ch g inp s

end Sys2Proof.Machine
end

