-- ==== Sys2Proof/Safety.lean ====
section
/-!
DEFINITION. What counts as a sound state: the properties the manual says every state of the part has. Claims that
every step keeps one of them are stated in Certificates/Slice0/Obligations.lean.
-/

namespace Sys2Proof.Machine

/-! ### Reference and Frame Counter -/

/-- REF_LOST is the sign of FREE_RUN, and the qualifying count, 0 to 8, is kept in FREE_RUN alone (R146, R148,
R149). -/
def RefCounter.Sound (r : RefCounter) : Prop :=
  match r.state, r.qualifying with
  | .locked, none => r.refLost = false
  | .freeRun, some n => r.refLost = true ∧ n ≤ Config.qualifyCount
  | _, _ => False

/-! ### Scaler Pool and Arbiter -/

/-- A request record agrees with its state: a WAITING one asks for 1 or 2 and holds none, a GRANTED one holds no more
than it asked for, a NONE one holds none (R88, R90, R92, R93). -/
def Request.Sound (r : Request) : Prop :=
  match r.state with
  | .none => r.requested = 0 ∧ r.granted = 0
  | .waiting => 1 ≤ r.requested ∧ r.requested ≤ 2 ∧ r.granted = 0
  | .granted => r.requested ≤ 2 ∧ r.granted ≤ r.requested

/-- The grants stay within the six scalers, the records are sound, and the queue holds exactly the waiting channels,
each once (R88). -/
def Pool.Sound (p : Pool) : Prop :=
  p.held ≤ Config.poolSize ∧ (∀ ch, (p.records.get ch).Sound) ∧ p.queue.Nodup ∧
    ∀ ch, ch ∈ p.queue ↔ (p.records.get ch).state = .waiting

/-- The pool is sound, and a channel whose engine is IDLE has no claim on it (R22, R45). -/
def State.PoolSound (s : State) : Prop :=
  s.pool.Sound ∧ ∀ ch, (s.chan ch).engine.state = .idle → (s.pool.records.get ch).state = .none

/-- The pool is sound, one request waits at most, and a waiting request does not fit the free scalers (R92). -/
def State.QueueSound (s : State) : Prop :=
  s.PoolSound ∧ s.pool.queue.length ≤ 1 ∧ ∀ ch ∈ s.pool.queue, s.pool.free < (s.pool.records.get ch).requested

/-! ### Junction Schedule -/

/-- An entry as the field checks and the lateness test leave it (R2, R3, R6). -/
def Entry.Sound (e : Entry) : Prop :=
  e.slot ≤ 40 ∧ (∀ w, e.watch = some w → 1 ≤ w ∧ w ≤ Config.maxWatch) ∧ e.lateness ≤ Config.maxTolerance

/-- At most 16 entries, in schedule order with distinct start frames, and a tolerance of at most 4 (R1, R4, R7,
R10). -/
def Schedule.Sound (sfc : FrameValue) (s : Schedule) : Prop :=
  s.entries.length ≤ Config.scheduleSize ∧ s.tolerance ≤ Config.maxTolerance ∧ (∀ e ∈ s.entries, e.Sound) ∧
    s.entries.Pairwise fun e f => orderKey sfc e.start < orderKey sfc f.start

/-- Every channel's schedule is sound against the SFC. -/
def State.SchedulesSound (s : State) : Prop := ∀ ch, (s.chan ch).schedule.Sound s.ref.sfc

/-! ### Junction Engine -/

/-- A rectangle a window may have: within the frame, even x and w, w at least 192, h at least 108 (R56). -/
def Rect.Drawable (r : Rect) : Prop :=
  r.x + r.w ≤ 1920 ∧ r.y + r.h ≤ 1080 ∧ r.x % 2 = 0 ∧ r.w % 2 = 0 ∧ 192 ≤ r.w ∧ 108 ≤ r.h

/-- A template whose rectangles are drawable and whose move lengths are at most 250 (R101, R102). -/
def Template.Sound (t : Template) : Prop :=
  Rect.Drawable t.pgmTarget ∧ Rect.Drawable t.prmStart ∧ Rect.Drawable t.prmTarget ∧ t.mIn ≤ 250 ∧ t.mOut ≤ 250

/-- Both ends of a window's move are drawable. -/
def Ends.Sound (e : Ends) : Prop := Rect.Drawable e.src ∧ Rect.Drawable e.dst

/-- A move of 1 to 250 frames between drawable rectangles, of the programme window or without it, with its counter short
of its length (R48, R56). -/
def Engine.MoveSound (e : Engine) (ofProgramme : Bool) : Prop :=
  ∃ mv, e.move = some mv ∧ mv.length = e.m ∧ e.k < e.m ∧ e.m ≤ 250 ∧ mv.promo.Sound ∧
    (∀ x, mv.pgm = some x → x.Sound) ∧ mv.pgm.isSome = ofProgramme

/-- The windows that are present are drawable (R56). -/
def Engine.RectsSound (e : Engine) : Prop :=
  (∀ r, e.pgmRect = some r → Rect.Drawable r) ∧ ∀ r, e.promoRect = some r → Rect.Drawable r

/-- The credit and watch counters are not running. -/
def Engine.CountersStopped (e : Engine) : Prop := e.credit = none ∧ e.watch = none

/-- No move runs, and k and M are 0. -/
def Engine.NoMove (e : Engine) : Prop := e.k = 0 ∧ e.m = 0 ∧ e.move = none

/-- What the engine holds in each state (R21, R31, R33, R34, R36, R37). -/
def Engine.StateSound (e : Engine) : Prop :=
  match e.state with
  | .idle => e = .idle
  | .armed => ∃ r, e = { Engine.idle with state := .armed, record := some r }
  | .squeeze =>
    e.record.isSome ∧ e.MoveSound true ∧ e.pgmRect.isSome ∧ e.promoRect.isSome ∧ e.watch = none
  | .held => e.record.isSome ∧ e.NoMove ∧ e.pgmRect.isSome ∧ e.promoRect.isSome
  | .release =>
    e.record.isSome ∧ e.MoveSound true ∧ e.pgmRect.isSome ∧ e.promoRect.isSome ∧ e.CountersStopped ∧ e.marker = none
  | .takeover => e.record.isSome ∧ e.MoveSound false ∧ e.pgmRect = none ∧ e.promoRect.isSome ∧ e.CountersStopped
  | .promoFull =>
    e.record.isSome ∧ e.NoMove ∧ e.pgmRect = none ∧ e.promoRect = some fullFrame ∧ e.CountersStopped

/-- The engine's state items, its windows and its template agree with R21, R48, R56 and R102. -/
def Engine.Sound (e : Engine) : Prop := e.StateSound ∧ e.RectsSound ∧ e.template.Sound

/-- Every template the library holds, or is writing, passed validation (R102, R104). -/
def Library.TemplatesSound (l : Library) : Prop :=
  (∀ i t, l.storedSlot i = .valid t → t.Sound) ∧ (∀ j t, l.volatileSlots.get j = some t → t.Sound) ∧
    ∀ fl i t, l.operation = some fl → fl.op = .write i t → t.Sound

/-- Every window of every channel is drawable, and so is every frame of the move in progress (R56). -/
def State.WindowsSound (s : State) : Prop := s.library.TemplatesSound ∧ ∀ ch, (s.chan ch).engine.Sound

/-- Every tally line agrees with its engine's state (R22). -/
def State.TalliesSound (s : State) : Prop := ∀ ch, (s.chan ch).tally = (s.chan ch).engine.state.tally

/-! ### Promo List and Control Parser -/

/-- A bank holds at most 31 items, an EMPTY one none, with chain flag 0, and a READY one at least one (R66, R69, R70,
R74). -/
def Bank.Sound (b : Bank) : Prop :=
  b.items.length ≤ 31 ∧ (b.state = .empty → b.items = [] ∧ b.chain = false) ∧ (b.state = .ready → b.items ≠ [])

/-- A bank is LOADING exactly when it is the bank of the open load context, and its items and the remaining count make
at most 31 (R71). -/
def ChannelState.LoadAgrees (c : ChannelState) : Prop :=
  match c.parser.context with
  | none => ∀ b, (c.promo.bank b).state ≠ .loading
  | some x =>
    (∀ b, (c.promo.bank b).state = .loading ↔ b = x.bank) ∧ 1 ≤ x.remaining ∧
      (c.promo.bank x.bank).items.length + x.remaining ≤ 31 ∧ 1 ≤ x.countdown ∧ x.countdown ≤ Config.loadWindow

/-- The play position names the one PLAYING bank and an item of it, or no bank while none is PLAYING, as in IDLE and
ARMED (R66, R69). -/
def ChannelState.PlayAgrees (c : ChannelState) : Prop :=
  match c.promo.play.bank, c.promo.play.cursor with
  | none, none => ∀ b, (c.promo.bank b).state ≠ .playing
  | some x, some cur =>
    (∀ b, (c.promo.bank b).state = .playing ↔ b = x) ∧ cur.index < (c.promo.bank x).items.length ∧
      c.engine.state.tally = true
  | _, _ => False

/-- The banks of a channel agree with its load context and its play position (R66, R69 to R76). -/
def ChannelState.BanksSound (c : ChannelState) : Prop :=
  (∀ b, (c.promo.bank b).Sound) ∧ c.LoadAgrees ∧ c.PlayAgrees

/-- Every channel's banks agree with its load context and its play position. -/
def State.BanksSound (s : State) : Prop := ∀ ch, (s.chan ch).BanksSound

/-- The addressing settings SET_UNIT allows, a packet count of at most 8 and an arm with a window of 1 or 2 (R159,
R169, R171). -/
def Parser.Sound (p : Parser) : Prop :=
  p.addressing.primaryId ≠ 0 ∧ p.addressing.primaryId ≠ 255 ∧ p.addressing.secondId ≠ 255 ∧
    p.addressing.mask ≠ 0 ∧ p.packetCount ≤ Config.packetLimit ∧
    ∀ a, p.arm = some a → 1 ≤ a.window ∧ a.window ≤ 2

/-- Every parser is sound. -/
def State.ParsersSound (s : State) : Prop := ∀ ch, (s.chan ch).parser.Sound

/-- At least one channel has management enable set (R168). -/
def State.SomeManager (s : State) : Prop := ∃ ch, s.management.get ch = true

/-! ### Composer and Status Reporter -/

/-- Every value of a gain lies between 0 and 65536, and a ramp runs at a position below 1024 (R143). -/
def Gain.Sound (g : Gain) : Prop :=
  g.present ≤ Config.one ∧ g.target ≤ Config.one ∧ g.start ≤ Config.one ∧
    ∀ n, g.position = some n → n < Config.rampLength

/-- Both gains are sound and the hold counters are at most 6 (R139, R140, R143). -/
def Composer.Sound (c : Composer) : Prop :=
  c.gP.Sound ∧ c.gR.Sound ∧ c.pgmHold.counter ≤ Config.holdLimit ∧ c.promoHold.counter ≤ Config.holdLimit

/-- Every composer is sound. -/
def State.ComposersSound (s : State) : Prop := ∀ ch, (s.chan ch).composer.Sound

/-- At most four results, and OMITTED only with four (R176). -/
def Reporter.Sound (r : Reporter) : Prop :=
  r.results.length ≤ Config.resultSize ∧ (r.omitted = true → r.results.length = Config.resultSize)

/-- Every reporter is sound. -/
def State.ReportersSound (s : State) : Prop := ∀ ch, (s.chan ch).reporter.Sound

/-! ### Template Library -/

/-- The operation in flight is short of its length, its slot is UNDER_OPERATION, and no other slot is (R104, R107,
R111). -/
def Library.OperationSound (l : Library) : Prop :=
  (∀ i, l.storedSlot i = .underOperation ↔ l.operation.bind (·.op.slot) = some i) ∧
    ∀ fl, l.operation = some fl → fl.progress < fl.op.length

/-- A channel has at most one fetch in the library, and its fetch state says where; such a fetch belongs to an ARMED
engine whose template is AWAITED, and an IDLE engine's fetch state is NONE. The fetch queue holds fetches only behind
an operation, of slots it is not on; the set-aside list holds those of its slot (R104, R113, R116, R118). -/
def State.FetchesSound (s : State) : Prop :=
  ((s.library.fetchQueue ++ s.library.setAside).map Fetch.channel).Nodup ∧
    (∀ ch, (ch ∈ s.library.fetchQueue.map Fetch.channel ↔ (s.chan ch).fetch = .queued) ∧
      (ch ∈ s.library.setAside.map Fetch.channel ↔ (s.chan ch).fetch = .setAside) ∧
      ((s.chan ch).engine.state = .idle → (s.chan ch).fetch = .none) ∧
      ((s.chan ch).fetch = .queued ∨ (s.chan ch).fetch = .setAside →
        (s.chan ch).engine.state = .armed ∧ ∃ r, (s.chan ch).engine.record = some r ∧ r.template = none)) ∧
    (s.library.fetchQueue ≠ [] → s.library.operation.isSome) ∧
    (∀ f ∈ s.library.fetchQueue, s.library.operatesOn f.slot = false) ∧
    ∀ f ∈ s.library.setAside, s.library.operatesOn f.slot = true

/-- A safe run is one whose every state is sound. -/
def State.Sound (s : State) : Prop :=
  s.ref.Sound ∧ s.QueueSound ∧ s.SchedulesSound ∧ s.WindowsSound ∧ s.TalliesSound ∧ s.BanksSound ∧ s.ParsersSound ∧
    s.SomeManager ∧ s.ComposersSound ∧ s.ReportersSound ∧ s.library.OperationSound ∧ s.FetchesSound

end Sys2Proof.Machine
end

