-- ==== Sys2Proof/WellFormed.lean ====
section
/-!
DEFINITION. What a command's operands may be: the numbers its encoding can carry (R180 to R183) and, for input
frames, the signal format (00_scope.md, Signal format). A field in the range of its encoding but outside the values
of its rule is well formed: the owning block answers it BAD_FIELD or BAD_COUNT (R165).
-/

namespace Sys2Proof

/-- The number fits one payload byte. -/
def fitsByte (n : Nat) : Bool := decide (n < 256)

/-- The number fits two payload bytes. -/
def fitsHalf (n : Nat) : Bool := decide (n < 65536)

/-- An optional field fits when it is absent or its value fits. -/
def fitsOption (p : Nat → Bool) : Option Nat → Bool
  | none => true
  | some n => p n

/-- Each coordinate of a rectangle is a two-byte number (R183). -/
def Rect.wf (r : Rect) : Bool := fitsHalf r.x && fitsHalf r.y && fitsHalf r.w && fitsHalf r.h

/-- Each component of a colour is a two-byte number (R183). -/
def Colour.wf (c : Colour) : Bool := fitsHalf c.luma && fitsHalf c.cb && fitsHalf c.cr

/-- The fields of SCHEDULE and CUE (R181). -/
def InsertFields.wf (f : InsertFields) : Bool :=
  fitsByte f.tag && fitsByte f.slot && fitsByte f.firstBank && fitsHalf f.credit && fitsByte f.endAction &&
    fitsOption fitsByte f.watch

/-- The fields of an item (R182). -/
def RawItem.wf (i : RawItem) : Bool :=
  fitsByte i.tag && fitsByte i.source && fitsByte i.timing && fitsHalf i.duration &&
    fitsOption fitsHalf i.gateLimit && fitsOption fitsByte i.pgmAudio && fitsOption fitsByte i.prmAudio

/-- A label as a template record carries it: its length byte is at most 207, so that the data count fits a byte,
and its characters are bytes (R180, R183). -/
def labelWf : Option (List Nat) → Bool
  | none => true
  | some l => decide (l.length ≤ 207) && l.all fitsByte

/-- The fields of a template record (R183). -/
def RawTemplate.wf (t : RawTemplate) : Bool :=
  labelWf t.label && t.pgmTarget.wf && t.prmStart.wf && t.prmTarget.wf && fitsByte t.layering && fitsByte t.mIn &&
    fitsByte t.mOut && fitsByte t.easeIn && fitsByte t.easeOut && t.backing.wf && fitsByte t.borderWidth &&
    t.borderColour.wf && fitsByte t.pgmAudio && fitsByte t.prmAudio

/-- The fields of a PROTECT_SET (R181). -/
def RawProtection.wf (r : RawProtection) : Bool :=
  fitsByte r.mode && fitsByte r.side && fitsByte r.sizeCode && fitsByte r.complement && fitsByte r.storedGuard

/-- The fields of a SET_UNIT (R181). -/
def RawUnit.wf (u : RawUnit) : Bool :=
  fitsByte u.primaryId && fitsByte u.secondId && fitsByte u.mask && fitsByte u.allCall && fitsByte u.consume

/-- The lines of a plane, each of a given number of 10-bit samples. -/
def planeWf (width height : Nat) (p : Array (Array Nat)) : Bool :=
  decide (p.size = height) && p.all fun line => decide (line.size = width) && line.all fun v => decide (v < 1024)

/-- A picture whose planes have its size (00_scope.md, Signal format). -/
def Picture.wf (p : Picture) : Bool :=
  planeWf p.width p.height p.luma && planeWf (p.width / 2) p.height p.cb && planeWf (p.width / 2) p.height p.cr

/-- A 24-bit signed stereo sample. -/
def sampleWf (s : Sample) : Bool :=
  decide (-8388608 ≤ s.1) && decide (s.1 ≤ 8388607) && decide (-8388608 ≤ s.2) && decide (s.2 ≤ 8388607)

/-- A frame of 1125 lines holds the packet (R160). -/
def AncPacket.wf (p : AncPacket) : Bool := decide (1 ≤ p.line) && decide (p.line ≤ 1125)

/-- A received frame carries a picture of the size it declares and 24-bit samples; packets outside the vertical
blanking stand after line 41 (R160). -/
def InputFrame.wf (f : InputFrame) : Bool :=
  (!f.received || (decide (f.picture.width = f.pixels) && decide (f.picture.height = f.lines) && f.picture.wf &&
    f.pair1.all sampleWf)) &&
    f.activeAnc.all fun p => p.wf && decide (Config.lastBlankingLine < p.line)

/-- The promo inputs of one reference frame. -/
def PromoFrames.wf (p : PromoFrames) : Bool := p.prm1.wf && p.prm2.wf

/-- The inputs of one channel frame event: a reference frame lasts between half a frame and one and a half (R149). -/
def FrameInputs.wf (i : FrameInputs) : Bool :=
  decide (Config.frameTicks ≤ 2 * i.length) && decide (2 * i.length ≤ 3 * Config.frameTicks) && i.pgm.wf && i.promo.wf

/-- What each command's operands may be. -/
def Instr.wf : Instr → Bool
  | .powerOn _ _ => true
  | .referenceFrameEvent => true
  | .refLoss => true
  | .refFrameStart _ _ => true
  | .refQualifyMiss _ => true
  | .channelFrameEvent _ inp => inp.wf
  | .libraryFrameEvent => true
  | .operationComplete => true
  | .fetchServed _ => true
  | .packetArrival _ arr => arr.packet.wf
  | .schedule _ _ _ f => f.wf
  | .cue _ _ offset f => fitsHalf offset && f.wf
  | .delete _ _ _ => true
  | .clearSchedule _ _ => true
  | .setTolerance _ _ value => fitsByte value
  | .endHold _ _ => true
  | .extend _ _ => true
  | .abort _ _ => true
  | .openBank _ _ bank count chain => fitsByte bank && fitsByte count && fitsByte chain
  | .items _ _ its => decide (1 ≤ its.length) && decide (its.length ≤ 8) && its.all RawItem.wf
  | .cancelLoad _ _ => true
  | .setUnit _ _ u => u.wf
  | .clearEvents _ _ _ => true
  | .readback _ _ target keyA keyB => fitsByte target && fitsByte keyA && fitsByte keyB
  | .resetArm _ _ scope => fitsByte scope
  | .reset _ _ scope => fitsByte scope
  | .resetArmExpiry _ => true
  | .setTime _ _ _ => true
  | .templateWrite _ _ slot t => fitsByte slot && t.wf
  | .templateErase _ _ slot => fitsByte slot
  | .protectSet _ _ r => r.wf
  | .lockSlot _ _ slot => fitsByte slot
  | .unlockSlot _ _ slot => fitsByte slot
  | .lockAll _ _ => true
  | .unlockAll _ _ => true
  | .freeze _ _ => true
  | .setManagement _ _ _ => true
  | .libguardChange _ => true
  | .arm _ => true
  | .scalerGrant => true
  | .missedBusy _ => true
  | .startEvent _ => true
  | .creditTimerExpiry _ => true
  | .watchExpiry _ => true
  | .endCauseTaken _ => true
  | .squeezeMoveEnd _ => true
  | .releaseMoveEnd _ => true
  | .takeoverMoveEnd _ => true
  | .takeoverListEnd _ => true
  | .promoFullEnd _ => true
  | .itemDurationExpiry _ offered => offered.wf
  | .gateLimitExpiry _ offered => offered.wf
  | .successorStart event => event.offered.wf
  | .loadTimeout _ => true
  | .sourceHoldExpiry _ _ inp => inp.wf
  | .gainRampEnd _ _ inp => inp.wf

end Sys2Proof
end

