-- ==== Sys2Proof/Certificates/Slice0/Obligations.lean ====
section
/-!
DEFINITION. The statements for the provers, and the words they are made with: a packet taken and answered, a channel's
blocks but for a grant, the end of a junction, the class of a command, the parts of a channel frame event.
-/

namespace Sys2Proof.Machine

/-! ### The words of the statements -/

/-- The state in which the owning block finds a taken packet: the reset arm of the channel is NONE (R171). -/
def State.taking (s : State) (ch : Channel) : State := s.modParser ch ({ · with arm := none })

/-- The answer of a taken packet appended to the result list of its channel (R161, R176). -/
def State.answering (s : State) (ch : Channel) (kind : Nat) (code : ResultCode) (how : Match) : State :=
  s.modReporter ch (·.append { kind := kind, code := code, how := how })

/-- A taken packet answered with nothing else changed. -/
def State.refusing (s : State) (ch : Channel) (kind : Nat) (code : ResultCode) (how : Match) : State :=
  (s.taking ch).answering ch kind code how

/-- A channel's blocks with the grant in its active junction record left out: another channel's release may let the
arbiter write it (R92). -/
def ChannelState.upToGrant (x : ChannelState) : ChannelState :=
  { x with engine := x.engine.modRecord ({ · with granted := 0 }) }

/-- A channel and its claim stand as they were. -/
def State.ChannelStands (c : Channel) (s t : State) : Prop :=
  t.chan c = s.chan c ∧ t.pool.records.get c = s.pool.records.get c ∧ (c ∈ t.pool.queue ↔ c ∈ s.pool.queue)

/-- A channel's waiting request has been granted in full, and its engine has recorded the grant (R25, R92). -/
def State.ChannelGranted (c : Channel) (s t : State) : Prop :=
  let q := s.pool.records.get c
  c ∈ s.pool.queue ∧ c ∉ t.pool.queue ∧
    t.pool.records.get c = { q with state := .granted, granted := q.requested } ∧
    t.chan c = { s.chan c with engine := (s.chan c).engine.modRecord ({ · with granted := q.requested }) }

/-- Nothing but one channel, its claim and its fetches differs, but that another channel's waiting request may have been
granted. -/
structure State.OthersKept (ch : Channel) (s t : State) : Prop where
  ref : t.ref = s.ref
  protection : t.protection = s.protection
  management : t.management = s.management
  aligned : t.aligned = s.aligned
  freeCount : t.freeCount = s.freeCount
  pending : t.pending = s.pending
  stored : t.library.stored = s.library.stored
  volatileSlots : t.library.volatileSlots = s.library.volatileSlots
  operation : t.library.operation = s.library.operation
  storeFail : t.library.storeFail = s.library.storeFail
  suspended : t.library.suspended = s.library.suspended
  queued : t.library.fetchQueue.filter (·.channel ≠ ch) = s.library.fetchQueue.filter (·.channel ≠ ch)
  setAside : t.library.setAside.filter (·.channel ≠ ch) = s.library.setAside.filter (·.channel ≠ ch)
  others : ∀ c, c ≠ ch → State.ChannelStands c s t ∨ State.ChannelGranted c s t

/-- A channel's junction has ended, before the arm test: the engine, the claim, the fetch, the look and the record of
the channel are as a junction end leaves them; its promo list and its load context are said apart (R44 to
R46). That the withdrawn claim holds start frame 0 is the model's choice (log entry 15). -/
structure State.JunctionEnded (ch : Channel) (s u : State) (last : LastJunction) : Prop where
  kept : State.OthersKept ch s u
  claim : u.pool.records.get ch = Request.none
  leftQueue : ch ∉ u.pool.queue
  leftFetches : ∀ f ∈ u.library.fetchQueue ++ u.library.setAside, f.channel ≠ ch
  fetch : (u.chan ch).fetch = .none
  engine : (u.chan ch).engine = .idle
  tally : (u.chan ch).tally = false
  composer : (u.chan ch).composer = { (s.chan ch).composer with look := .outside }
  schedule : (u.chan ch).schedule = (s.chan ch).schedule
  output : (u.chan ch).output = (s.chan ch).output
  record : (u.chan ch).reporter.last = some last
  results : (u.chan ch).reporter.results = (s.chan ch).reporter.results
  omitted : (u.chan ch).reporter.omitted = (s.chan ch).reporter.omitted
  readback : (u.chan ch).reporter.readback = (s.chan ch).reporter.readback

/-- The last-junction record an engine's record gives with an outcome and an end cause (R46). -/
def JunctionRecord.outcome (r : JunctionRecord) (o : JunctionOutcome) (c : Option EndCause) : LastJunction :=
  { tag := r.tag, start := r.start, outcome := o, endCause := c, itemsPlayed := r.itemsPlayed,
    fallbackUsed := r.fallbackUsed, scalersGranted := r.granted, latenessTaken := r.latenessTaken }

/-- A promo list at a junction end other than ABORT: the PLAYING bank SPENT, the play position cleared (R85). -/
def PromoList.spent (p : PromoList) : PromoList :=
  { bank0 := { p.bank0 with state := if p.bank0.state = .playing then .spent else p.bank0.state }
    bank1 := { p.bank1 with state := if p.bank1.state = .playing then .spent else p.bank1.state }
    play := { bank := none, cursor := none, started := 0 } }

/-- The table row a parsed command stands for, on a channel and with a match. -/
def Command.instr (ch : Channel) (m : Match) : Command → Instr
  | .schedule start f => .schedule ch m start f
  | .cue offset f => .cue ch m offset f
  | .delete start => .delete ch m start
  | .clearSchedule => .clearSchedule ch m
  | .setTolerance v => .setTolerance ch m v
  | .endHold => .endHold ch m
  | .extend => .extend ch m
  | .abort => .abort ch m
  | .openBank b n c => .openBank ch m b n c
  | .items its => .items ch m its
  | .cancelLoad => .cancelLoad ch m
  | .setUnit u => .setUnit ch m u
  | .clearEvents mask => .clearEvents ch m mask
  | .readback t a b => .readback ch m t a b
  | .resetArm sc => .resetArm ch m sc
  | .reset sc => .reset ch m sc
  | .setTime v => .setTime ch m v
  | .templateWrite slot t => .templateWrite ch m slot t
  | .templateErase slot => .templateErase ch m slot
  | .protectSet r => .protectSet ch m r
  | .lockSlot slot => .lockSlot ch m slot
  | .unlockSlot slot => .unlockSlot ch m slot
  | .lockAll => .lockAll ch m
  | .unlockAll => .unlockAll ch m
  | .freeze => .freeze ch m
  | .setManagement f => .setManagement ch m f

/-- A command is a channel command that acts on its own channel: every channel command but a RESET of PART scope
(R167, R172). -/
def Command.ofChannel : Command → Bool
  | .schedule _ _ | .cue _ _ | .delete _ | .clearSchedule | .setTolerance _ | .endHold | .extend | .abort
  | .openBank _ _ _ | .items _ | .cancelLoad | .setUnit _ | .clearEvents _ | .readback _ _ _ | .resetArm _ => true
  | .reset sc => decide (sc ≠ 1)
  | .setTime _ | .templateWrite _ _ | .templateErase _ | .protectSet _ | .lockSlot _ | .unlockSlot _ | .lockAll
  | .unlockAll | .freeze | .setManagement _ => false

/-- A command is a common command (R167). -/
def Command.common : Command → Bool
  | .setTime _ | .templateWrite _ _ | .templateErase _ | .protectSet _ | .lockSlot _ | .unlockSlot _ | .lockAll
  | .unlockAll | .freeze | .setManagement _ => true
  | .schedule _ _ | .cue _ _ | .delete _ | .clearSchedule | .setTolerance _ | .endHold | .extend | .abort
  | .openBank _ _ _ | .items _ | .cancelLoad | .setUnit _ | .clearEvents _ | .readback _ _ _ | .resetArm _
  | .reset _ => false

/-- The entry an insert with a bank, an end action and a lateness makes (R2, R3). -/
def insertedEntry (f : InsertFields) (start : FrameValue) (b : BankId) (a : EndAction) (late : Bool) (n : Nat) : Entry :=
  { start := start, tag := f.tag, slot := f.slot, firstBank := b, credit := f.credit,
    watch := f.watch.map fun w => min w 250, endAction := a, late := late, lateness := n }

/-- The state with an entry put into a channel's schedule at the place its start gives it (R4). -/
def State.inserted (s : State) (ch : Channel) (e : Entry) : State :=
  s.modChan ch fun c =>
    { c with schedule := { c.schedule with entries := insertEntry s.ref.sfc e c.schedule.entries } }

/-- The insert fields are out of range (R3). -/
def InsertFieldsBad (f : InsertFields) : Prop := 40 < f.slot ∨ 1 < f.firstBank ∨ 1 < f.endAction ∨ f.watch = some 0

/-- An insert meets the armed start (R9). -/
def MeetsArmedStart (c : ChannelState) (start : FrameValue) : Prop :=
  c.engine.state = .armed ∧ ∃ r, c.engine.record = some r ∧ ahead start r.start = false

/-- A carried template record meets every test of R102. -/
def TemplatePasses (r : RawTemplate) : Prop :=
  (∀ l, r.label = some l → l.length ≤ 16 ∧ ∀ c ∈ l, 0x20 ≤ c ∧ c ≤ 0x7E) ∧
    Rect.Drawable r.pgmTarget ∧ Rect.Drawable r.prmStart ∧ Rect.Drawable r.prmTarget ∧
    r.layering ≤ 1 ∧ r.easeIn ≤ 3 ∧ r.easeOut ≤ 3 ∧ r.mIn ≤ 250 ∧ r.mOut ≤ 250 ∧
    (∀ c, c = r.backing ∨ c = r.borderColour →
      64 ≤ c.luma ∧ c.luma ≤ 940 ∧ 64 ≤ c.cb ∧ c.cb ≤ 960 ∧ 64 ≤ c.cr ∧ c.cr ≤ 960) ∧
    r.borderWidth % 2 = 0 ∧ r.borderWidth ≤ 16 ∧ r.pgmAudio ≤ 3 ∧ r.prmAudio ≤ 3

/-- The first end cause present at an event in SQUEEZE or HELD (R38). -/
def FirstCause (e : Engine) (c : EndCause) : Prop :=
  let credit := expires e.credit = true
  let watch := e.state = .held ∧ expires e.watch = true
  (c = .endCommand ∧ e.marker = some .endCommand) ∨
    (c = .creditTimer ∧ e.marker ≠ some .endCommand ∧ credit) ∨
    (c = .watch ∧ e.marker ≠ some .endCommand ∧ ¬ credit ∧ watch) ∨
    (c = .listEnd ∧ e.marker = some .listEnd ∧ ¬ credit ∧ ¬ watch)

/-- A row of the table names the taking of an end cause that is present (R33, R34, R38). -/
def NamesCause (ch : Channel) (e : Engine) (i : Instr) : Prop :=
  i = .endCauseTaken ch ∨ (i = .creditTimerExpiry ch ∧ expires e.credit = true) ∨
    (i = .watchExpiry ch ∧ e.state = .held ∧ expires e.watch = true)

/-- The current item of a running list after the count of one more frame (R78, R79). -/
def countedCursor (c : Cursor) (sourceValid : Bool) : Cursor :=
  { c with
    duration := if c.gate.isSome ∧ sourceValid = false then c.duration else c.duration - 1
    gate := c.gate.map (· - 1) }

/-- The pending-end marker with LIST_END put in unless it holds END (R37). -/
def markedListEnd (m : Option Marker) : Option Marker :=
  if m = some .endCommand then some .endCommand else some .listEnd

/-- An event leaves a running junction running and takes no end cause: no cause in SQUEEZE and HELD, a move short of its
end in RELEASE, no LIST_END in TAKEOVER, no marker in PROMO_FULL (R32, R35, R38, R41 to R43). -/
def RunsOn (e : Engine) : Prop :=
  match e.state with
  | .squeeze | .held => ∀ c, ¬ FirstCause e c
  | .release => e.k + 1 < e.m
  | .takeover => e.marker ≠ some .listEnd
  | .promoFull => e.marker = none
  | .idle | .armed => False

/-- The engine is in a state in which a FINISHED item's successor starts (R80, R81). -/
def AdvancesItems (e : Engine) : Prop :=
  e.state = .squeeze ∨ e.state = .held ∨ e.state = .takeover ∨ e.state = .promoFull

/-- A count of items started one higher, up to 62 and no further (R80). -/
def countedStart (n : Nat) : Nat := if n < 62 then n + 1 else 62

/-- The current item of a bank after the frame that shows it has been counted: when a counter stands at 0 it is FINISHED
where it has a successor and EXHAUSTED where it has none (R78, R79, R82, R83). -/
def PromoList.shown (p : PromoList) (v : PromoValidity) (b : BankId) (cur : Cursor) (it : Item) : Cursor :=
  let cur' := countedCursor cur (it.source.valid v)
  let bank := p.bank b
  let followed :=
    cur.index + 1 < bank.items.length ∨ (bank.chain = true ∧ (p.bank b.other).state = .ready)
  if cur'.duration = 0 ∨ cur'.gate = some 0 then { cur' with phase := if followed then .finished else .exhausted }
  else cur'

/-- The play position put on a cursor of a bank. -/
def PromoList.at (p : PromoList) (b : BankId) (cur : Cursor) (started : Nat) : PromoList :=
  { p with play := { bank := some b, cursor := some cur, started := started } }

/-- The counters of an item as it starts (R78, R79). -/
def startingCursor (j : Nat) (i : Item) : Cursor :=
  { index := j, phase := .running, duration := i.duration,
    gate := match i.timing with
      | .fixed => none
      | .gated limit => some limit }

/-- A channel with the list an event leaves: the items played rise with a start, LIST_END is marked and BANK_UNDERRUN set
where they are to be (R37, R46, R80, R82). -/
def ChannelState.listed (c : ChannelState) (p : PromoList) (started marks underrun : Bool) : ChannelState :=
  { c with
    promo := p
    engine :=
      { c.engine with
        record :=
          if started then c.engine.record.map fun r => { r with itemsPlayed := countedStart r.itemsPlayed }
          else c.engine.record
        marker := if marks then markedListEnd c.engine.marker else c.engine.marker }
    reporter :=
      if underrun then { c.reporter with flags := c.reporter.flags ||| Flag.bankUnderrun.word } else c.reporter }

/-! ### The words of the frame events -/

/-- A channel's blocks with one more channel frame event counted by its load context and its reset arm: the idle
countdown falls, and at 0 the load is dropped with LOAD_TIMEOUT; the window falls, and at 0 the arm is cleared (R76,
R171). -/
def ChannelState.frameCounted (c : ChannelState) : ChannelState :=
  let arm := c.parser.arm.bind fun a => if a.window ≤ 1 then none else some { a with window := a.window - 1 }
  match c.parser.context with
  | none => { c with parser := { c.parser with arm := arm } }
  | some x =>
    if x.countdown ≤ 1 then
      { c with
        promo := c.promo.setBank x.bank { state := .empty, items := [], chain := false }
        parser := { c.parser with arm := arm, context := none }
        reporter := { c.reporter with flags := c.reporter.flags ||| Flag.loadTimeout.word } }
    else { c with parser := { c.parser with arm := arm, context := some { x with countdown := x.countdown - 1 } } }

/-- The state in which the junction's work of a channel frame event finds the part: the promo inputs judged, the load
context and the reset arm counted (R76, R155, R171; log entry 20). -/
def State.atFrame (s : State) (ch : Channel) (inp : FrameInputs) : State :=
  ({ s with aligned := some (s.promoFrames inp.promo) }).modChan ch (·.frameCounted)

/-- What a channel frame event adds to the state its junction and schedule work has led to: the composer and the output
of the channel, SOURCE_HOLD, and the result list and the readback section emptied; the composer's settings and everything
else stand (R139, R140, R175, R176). -/
structure State.FrameTail (ch : Channel) (w t : State) : Prop where
  rest : t = { w with channels := t.channels }
  others : ∀ x, x ≠ ch → t.chan x = w.chan x
  own :
    t.chan ch =
      { w.chan ch with
        composer := (t.chan ch).composer
        output := (t.chan ch).output
        reporter :=
          { (w.chan ch).reporter with
            flags := (t.chan ch).reporter.flags, results := [], omitted := false, readback := none } }
  look : (t.chan ch).composer.look = (w.chan ch).composer.look
  flags :
    (t.chan ch).reporter.flags = (w.chan ch).reporter.flags ∨
      (t.chan ch).reporter.flags = (w.chan ch).reporter.flags ||| Flag.sourceHold.word

/-- A channel frame event that ends the channel's junction: the junction end, with the PLAYING bank SPENT and flags set
beside, then the arm test, the miss sweep and the frame (R14, R16, R45, R85; log entries 15 and 20). -/
def State.FrameEnds (ch : Channel) (inp : FrameInputs) (s : State) (last : LastJunction) (extra : BitVec 10) : Prop :=
  let s1 := s.atFrame ch inp
  ∃ u v w t, State.JunctionEnded ch s1 u last ∧
    (u.chan ch).reporter.flags = (s1.chan ch).reporter.flags ||| extra ∧
    (u.chan ch).promo = (s1.chan ch).promo.spent ∧ (u.chan ch).parser = (s1.chan ch).parser ∧
    exec (.arm ch) u = .next v ∧ exec (.missedBusy ch) v = .next w ∧
    exec (.channelFrameEvent ch inp) s = .next t ∧ State.FrameTail ch w t

/-- A channel frame event leaves the banks and the play position, the marker, the items played and BANK_UNDERRUN as a
channel has them. -/
def State.FrameLists (ch : Channel) (inp : FrameInputs) (s : State) (d : ChannelState) : Prop :=
  ∃ t, exec (.channelFrameEvent ch inp) s = .next t ∧ (t.chan ch).promo = d.promo ∧
    (t.chan ch).engine.marker = d.engine.marker ∧
    (t.chan ch).engine.record.map (·.itemsPlayed) = d.engine.record.map (·.itemsPlayed) ∧
    (t.chan ch).reporter.flag .bankUnderrun = d.reporter.flag .bankUnderrun

/-- The state a channel frame event leaves, with the result list and the readback section it emptied put back: what the
status packet of the frame reports (R175, R176, R179). -/
def State.reported (ch : Channel) (s t : State) : State :=
  t.modReporter ch
    ({ · with
      results := (s.chan ch).reporter.results, omitted := (s.chan ch).reporter.omitted
      readback := (s.chan ch).reporter.readback })

/-- What the frame of a channel frame event that leads to `t` is drawn from: the last frame of a RELEASE from the last
rectangles of its move, any other from what the event leaves, a passthrough frame in IDLE and ARMED (R41, R134, R135). -/
def State.handed (ch : Channel) (inp : FrameInputs) (s t : State) : FrameView :=
  let c := (s.atFrame ch inp).chan ch
  let e := c.engine
  if e.state = .release ∧ e.m ≤ e.k + 1 then
    { state := .release
      pgm := match e.move with
        | none => e.pgmRect
        | some mv => mv.pgm.map (moveRect (e.k + 1) mv.length mv.easing)
      promo := match e.move with
        | none => e.promoRect
        | some mv => some (moveRect (e.k + 1) mv.length mv.easing mv.promo)
      item := c.promo.current, look := c.composer.look }
  else (t.chan ch).view

/-- A channel's engine has its active junction record in every state but IDLE (R21). -/
def State.RecordPresent (s : State) (ch : Channel) : Prop :=
  (s.chan ch).engine.state ≠ .idle → (s.chan ch).engine.record.isSome

/-! ### The words of the picture and the mix -/

/-- A component of a picture. -/
inductive Component
  | luma | cb | cr
  deriving DecidableEq, Repr

/-- The samples of a component in a picture. -/
def Component.plane : Component → Picture → Array (Array Nat)
  | .luma, p => p.luma
  | .cb, p => p.cb
  | .cr, p => p.cr

/-- A component of a colour. -/
def Component.of : Component → Colour → Nat
  | .luma, c => c.luma
  | .cb, c => c.cb
  | .cr, c => c.cr

/-- The columns of the frame that a sample of a component covers (00_scope.md, Signal format). -/
def Component.scale : Component → Nat
  | .luma => 1
  | .cb | .cr => 2

/-- A pixel is inside a rectangle (00_scope.md, Rectangles). -/
def Rect.Inside (r : Rect) (column line : Nat) : Prop :=
  r.x ≤ column ∧ column < r.x + r.w ∧ r.y ≤ line ∧ line < r.y + r.h

/-- A pixel of the frame is inside the border ring of a width around a programme window (R137). -/
def Rect.InRing (r : Rect) (width column line : Nat) : Prop :=
  r.x ≤ column + width ∧ column < r.x + r.w + width ∧ r.y ≤ line + width ∧ line < r.y + r.h + width ∧
    ¬ Rect.Inside r column line

/-- The sample of a component inside a window on an input: the input resampled into the window while it is valid, the
hold picture by repetition in the first five frames of a loss, the backing colour in the others and where there is no
hold picture (R138 to R141). -/
def heldSample (x : Component) (valid : Bool) (src : Picture) (r : Rect) (backing : Colour) (h : Hold) (i j : Nat) :
    Nat :=
  if valid then planeAt (x.plane (windowPicture r src)) i j
  else if h.counter + 1 < 6 then
    match h.picture with
    | none => x.of backing
    | some q => planeAt (x.plane q) (i * q.width / r.w) (j * q.height / r.h)
  else x.of backing

/-- What an item's source offers: none for BACKING and for no item, else the frame of the promo input it names. -/
def namedInput (p : PromoFrames) (i : Option Item) : Option InputFrame :=
  match i.map Item.source with
  | some .prm1 => some p.prm1
  | some .prm2 => some p.prm2
  | some .backing => none
  | none => none

/-- A gain with its target for a frame set: a target that differs from the one in force starts a ramp from the gain of
the last sample mixed, or from the settled value (R142, R143). -/
def Gain.aimed (g : Gain) (target : Nat) : Gain :=
  if target = g.target then g
  else
    { present := g.present, target := target, position := some 0
      start := match g.position with
        | none => g.target
        | some _ => g.present }

/-- The gain applied to the i-th sample of a frame (R143). -/
def Gain.sample (g : Gain) (i : Nat) : Nat :=
  match g.position with
  | none => g.target
  | some s =>
    if 1024 ≤ s + i then g.target
    else ((g.start : Int) + ((g.target : Int) - (g.start : Int)) * ((s + i : Nat) : Int) / 1024).toNat

/-- A gain after the samples of a frame (R143, R145). -/
def Gain.mixed (g : Gain) (n : Nat) : Gain :=
  { g with
    present := if n = 0 then g.present else g.sample (n - 1)
    position := match g.position with
      | none => none
      | some s => if 1024 ≤ s + n then none else some (s + n) }

/-- One sample of the mix: the floored weighted sum, limited to 24 bits (R144). -/
def mixed (p r : Int) (gP gR : Nat) : Int :=
  let sum := (p * gP + r * gR) / 65536
  if 8388607 < sum then 8388607 else if sum < -8388608 then -8388608 else sum

/-- The targets of gP and gR in a frame (R142). -/
def AimsAt (view : FrameView) (gP gR : Nat) : Prop :=
  let gain (code : Nat) : Nat := if code = 0 then 65536 else if code = 1 then 32768 else if code = 2 then 16384 else 0
  ((view.state = .idle ∨ view.state = .release) → gP = 65536 ∧ gR = 0) ∧
    ∀ d, view.look.codes = some d →
      ((view.state = .squeeze ∨ view.state = .held) →
        (∀ i, view.item = some i → gP = gain (i.pgmAudio.getD d.pgm) ∧ gR = gain (i.prmAudio.getD d.prm)) ∧
          (view.item = none → gP = gain d.pgm ∧ gR = 0)) ∧
        ((view.state = .takeover ∨ view.state = .promoFull) →
          (∀ i, view.item = some i → gP = 0 ∧ gR = gain (i.prmAudio.getD d.prm)) ∧
            (view.item = none → gP = 0 ∧ gR = 0))

end Sys2Proof.Machine

open Sys2Proof Sys2Proof.Machine

/-! ### The step and the whole part -/

/-- The step takes the command at the front of the queue and runs it with the rest waiting; on an empty queue the part
idles. The queue and the idling are the model's own (log entry 1). -/
def Obligations.StepRunsTheFrontCommand : Prop :=
  ∀ (c : Instr) (s : State) (rest : List Instr),
    step { s with pending := c :: rest } = exec c { s with pending := rest } ∧
      step { s with pending := [] } = .next { s with pending := [] }

/-- Every command and event is taken in every state, with no fault and no refusal, and leaves the queue alone. -/
def Obligations.EveryCommandIsTaken : Prop :=
  ∀ (i : Instr) (s : State), ∃ t, exec i s = .next t ∧ t.pending = s.pending

/-- The state after reset is sound in every respect. Its strap code and the start frame of an empty request record
are the model's choice (log entries 7 and 15); no clause rests on them. -/
def Obligations.ResetIsSound : Prop := State.reset.Sound

/-! ### Packets -/

/-- The payload of every well-formed command, written by R181 to R183, is read back as that command. -/
def Obligations.EncodedCommandsParse : Prop :=
  ∀ (ch : Channel) (m : Match) (c : Command), (c.instr ch m).wf = true → parseCommand c.kind c.bytes = some c

/-- A control packet that carries a well-formed command, its words and checksum written by R180, that matches and is
within the packet limit, not skipped, is taken as the row of its command, and is removed when consume is ON. That a row
is a taken packet is the model's choice (log entry 3), as is the output frame a packet that passes reaches (log entry
19). -/
def Obligations.PacketsRunTheirCommand : Prop :=
  ∀ (ch : Channel) (m : Match) (c : Command) (unit : Nat) (arr : Arrival) (s : State),
    (c.instr ch m).wf = true → unit < 256 → arr.valid = true → inBlanking arr.packet = true →
    arr.packet.words = gosmaraWords 0x52 0x21 (c.payload unit) →
    (s.chan ch).parser.addressing.matches unit = some m →
    (arr.first = false → (s.chan ch).parser.packetCount < 8 ∧ (s.chan ch).parser.skip = false) →
    ∃ t,
      exec (c.instr ch m)
          (s.modParser ch fun p =>
            if arr.first then { p with packetCount := 1, skip := false }
            else { p with packetCount := p.packetCount + 1 }) = .next t ∧
        exec (.packetArrival ch arr) s =
          .next (if (s.chan ch).parser.addressing.consume then t else passPacket ch arr t)

/-- The stages of R161 that end a packet's handling before its command reaches a block. The first packet of a frame
finds the packet count at 0 and the skip flag clear, whatever its class (R161, R166). That a packet too short for its
data count passes unread is the model's reading (log entry 13), and the output frame a packet that passes reaches its
choice (log entry 19). -/
def Obligations.PacketStagesInOrder : Prop :=
  ∀ (ch : Channel) (arr : Arrival) (s : State),
    let s0 := if arr.first then s.modParser ch ({ · with packetCount := 0, skip := false }) else s
    let p := (s0.chan ch).parser
    let run := exec (.packetArrival ch arr) s
    let counted := s0.modParser ch ({ · with packetCount := p.packetCount + 1 })
    let removed (t : State) : State := if p.addressing.consume then t else passPacket ch arr t
    let malformed (kind : Nat) (m : Match) : State :=
      removed (((counted.taking ch).modParser ch ({ · with skip := true })).answering ch kind .badCommand m)
    (arr.valid = false → run = .next s) ∧
      (arr.valid = true → inBlanking arr.packet = false → run = .next (passPacket ch arr s)) ∧
      (arr.valid = true → inBlanking arr.packet = true →
        (classify arr.packet.words ≠ .control → run = .next (passPacket ch arr s0)) ∧
          (classify arr.packet.words = .control →
            (8 ≤ p.packetCount → run = .next (passPacket ch arr (s0.raise ch .packetLimit))) ∧
              (p.packetCount < 8 →
                (checkedPayload arr.packet.words = none → run = .next (passPacket ch arr counted)) ∧
                  (checkedPayload arr.packet.words = some [] → run = .next (passPacket ch arr counted)) ∧
                  ∀ unit rest, checkedPayload arr.packet.words = some (unit :: rest) →
                    (p.addressing.matches unit = none → run = .next (passPacket ch arr counted)) ∧
                      ∀ m, p.addressing.matches unit = some m →
                        (p.skip = true → run = .next (removed counted)) ∧
                          (p.skip = false → rest = [] → run = .next (malformed 0 m)) ∧
                          (p.skip = false → ∀ kind bs, rest = kind :: bs → parseCommand kind bs = none →
                            run = .next (malformed kind m)))))

/-! ### What every step keeps -/

/-- Every step keeps the pool sound, with at most six scalers granted and none to an IDLE channel (R88), and the request
queue at one request that does not fit (R92). -/
def Obligations.StepKeepsThePool : Prop :=
  ∀ s t : State, step s = .next t → (s.PoolSound → t.PoolSound) ∧ (s.QueueSound → t.QueueSound)

/-- Every step keeps every window drawable, with the engine items that make it so (R56). -/
def Obligations.StepKeepsTheWindows : Prop :=
  ∀ s t : State, s.WindowsSound → step s = .next t → t.WindowsSound

/-- Every step keeps every schedule in order against the SFC, of at most 16 entries with distinct start frames (R1,
R4). -/
def Obligations.StepKeepsTheSchedules : Prop :=
  ∀ s t : State, s.SchedulesSound → step s = .next t → t.SchedulesSound

/-- Every step keeps the banks in agreement with the load context and the play position (R69, R71). -/
def Obligations.StepKeepsTheBanks : Prop :=
  ∀ s t : State, s.BanksSound → step s = .next t → t.BanksSound

/-- Every step keeps the operation in flight in agreement with the slot states (R104, R107, R111), and the fetch queue
and the set-aside list with the fetch states and the operation (R104, R113, R116). -/
def Obligations.StepKeepsTheLibrary : Prop :=
  ∀ s t : State, step s = .next t →
    (s.library.OperationSound → t.library.OperationSound) ∧ (s.FetchesSound → t.FetchesSound)

/-- Every step keeps the parsers, the composers and the reporters in their ranges (R159, R133, R143, R176), REF_LOST with
the reference state (R146), a manager among the channels (R168), and each tally line with its engine's state (R22). -/
def Obligations.StepKeepsTheRegisters : Prop :=
  ∀ s t : State, step s = .next t →
    (s.ParsersSound → t.ParsersSound) ∧ (s.ComposersSound → t.ComposersSound) ∧
      (s.ReportersSound → t.ReportersSound) ∧ (s.ref.Sound → t.ref.Sound) ∧ (s.SomeManager → t.SomeManager) ∧
      (s.TalliesSound → t.TalliesSound)

/-! ### What no command can change -/

/-- Once frozen, the guard stays FROZEN until power-on; the locks change only by a part reset, which sets them, and
the record only by the commit of a PROTECT_SET accepted before (R127). -/
def Obligations.FrozenSettingsStayClosed : Prop :=
  ∀ (i : Instr) (s t : State), s.protection.guardState = .frozen → (∀ a b, i ≠ .powerOn a b) → exec i s = .next t →
    t.protection.guardState = .frozen ∧
      (t.protection.locks = s.protection.locks ∨ t.protection.locks = Vector.replicate 32 true) ∧
      (t.protection.record = s.protection.record ∨
        ∃ p n, s.library.operation = some { op := .protectSet p, progress := n } ∧ t.protection.record = p)

/-- A channel command reaches the blocks of its channel and its claims on the part-wide blocks, and nothing else, but
for a grant that its release lets the arbiter make (R167, R172). -/
def Obligations.ChannelCommandsStayInTheirChannel : Prop :=
  ∀ (ch : Channel) (m : Match) (c : Command) (s t : State), c.ofChannel = true → exec (c.instr ch m) s = .next t →
    State.OthersKept ch s t

/-- A common command from a channel without management enable is answered NOT_MANAGER and changes nothing (R167). -/
def Obligations.CommonCommandsNeedManagement : Prop :=
  ∀ (ch : Channel) (m : Match) (c : Command) (s : State), c.common = true → s.management.get ch = false →
    exec (c.instr ch m) s = .next (s.refusing ch c.kind .notManager m)

/-- No command and no event alters a stored slot that is in the protected set and not under operation (R107). -/
def Obligations.ProtectedSlotsKeepTheirContent : Prop :=
  ∀ (i : Instr) (j : SlotIndex) (s t : State), s.library.OperationSound → s.protection.protects j = true →
    s.library.storedSlot j ≠ .underOperation → exec i s = .next t → t.library.storedSlot j = s.library.storedSlot j

/-! ### The Junction Schedule -/

/-- An insert that passes every test joins the schedule at its place, a late one sets LATE_TAKEN, and the arm test
runs before the answer OK (R2, R5, R6, R8, R11). -/
def Obligations.InsertsAreAccepted : Prop :=
  ∀ (ch : Channel) (m : Match) (start : FrameValue) (offset : Nat) (f : InsertFields) (b : BankId) (a : EndAction)
    (s : State),
    f.slot ≤ 40 → f.firstBank = b.code → f.endAction = a.code → f.watch ≠ some 0 →
    ¬ MeetsArmedStart (s.chan ch) start → (∀ e ∈ (s.chan ch).schedule.entries, e.start ≠ start) →
    (s.chan ch).schedule.entries.length < 16 →
    let late := (s.ref.sfc - start).toNat
    (ahead start s.ref.sfc = true ∨ start = s.ref.sfc →
      exec (.schedule ch m start f) s =
        .next ((armTest ch ((s.taking ch).inserted ch (insertedEntry f start b a false 0))).answering ch 0x01 .ok m)) ∧
      (ahead start s.ref.sfc = false → start ≠ s.ref.sfc → late ≤ (s.chan ch).schedule.tolerance →
        exec (.schedule ch m start f) s =
          .next
            ((armTest ch (((s.taking ch).inserted ch (insertedEntry f start b a true late)).raise ch .lateTaken)).answering
              ch 0x01 .ok m)) ∧
      (offset ≤ 1000 → start = s.ref.sfc + BitVec.ofNat 32 offset →
        exec (.cue ch m offset f) s =
          .next
            ((armTest ch ((s.taking ch).inserted ch (insertedEntry f start b a false 0))).answering ch 0x02 .ok m))

/-- The tests of an insert in their order, each refusal with nothing else changed (R3, R6, R8 to R11). -/
def Obligations.InsertsAreRefusedInOrder : Prop :=
  ∀ (ch : Channel) (m : Match) (start : FrameValue) (offset : Nat) (f : InsertFields) (s : State),
    let c := s.chan ch
    let passed := ahead start s.ref.sfc = false ∧ start ≠ s.ref.sfc
    let tooLate := passed ∧ c.schedule.tolerance < (s.ref.sfc - start).toNat
    let held := ∃ e ∈ c.schedule.entries, e.start = start
    let full := 16 ≤ c.schedule.entries.length
    let refused (i : Instr) (kind : Nat) (code : ResultCode) : Prop := exec i s = .next (s.refusing ch kind code m)
    let later (i : Instr) (kind : Nat) : Prop :=
      (MeetsArmedStart c start → refused i kind .conflict) ∧
        (¬ MeetsArmedStart c start → held → refused i kind .duplicate) ∧
        (¬ MeetsArmedStart c start → ¬ held → full → refused i kind .full)
    (InsertFieldsBad f → refused (.schedule ch m start f) 0x01 .badField) ∧
      (¬ InsertFieldsBad f → tooLate → refused (.schedule ch m start f) 0x01 .late) ∧
      (¬ InsertFieldsBad f → ¬ tooLate → later (.schedule ch m start f) 0x01) ∧
      (InsertFieldsBad f ∨ 1000 < offset → refused (.cue ch m offset f) 0x02 .badField) ∧
      (¬ InsertFieldsBad f → offset ≤ 1000 → start = s.ref.sfc + BitVec.ofNat 32 offset →
        later (.cue ch m offset f) 0x02)

/-- DELETE removes the entry of its start frame and is answered OK, or finds none and is answered NOT_FOUND;
CLEAR_SCHEDULE empties the schedule and keeps the tolerance; SET_TOLERANCE stores its value, or 4 where it is above 4,
and keeps the entries (R12, R13, R7). -/
def Obligations.ScheduleIsEdited : Prop :=
  ∀ (ch : Channel) (m : Match) (start : FrameValue) (v : Nat) (s : State),
    let edited (d : Schedule) (kind : Nat) : State :=
      ((s.taking ch).modChan ch fun x => { x with schedule := d }).answering ch kind .ok m
    let d := (s.chan ch).schedule
    ((∃ e ∈ d.entries, e.start = start) →
      exec (.delete ch m start) s =
        .next (edited { d with entries := d.entries.filter fun e => decide (e.start ≠ start) } 0x03)) ∧
      ((∀ e ∈ d.entries, e.start ≠ start) →
        exec (.delete ch m start) s = .next (s.refusing ch 0x03 .notFound m)) ∧
      exec (.clearSchedule ch m) s = .next (edited { d with entries := [] } 0x04) ∧
      exec (.setTolerance ch m v) s = .next (edited { d with tolerance := if 4 < v then 4 else v } 0x05)

/-- The arm test of an IDLE engine takes the first entry of the schedule when it is due or ahead by at most 12 frames:
the entry leaves the schedule, the engine is ARMED with its record, and a fetch and a scaler request are sent. With no
request waiting, the request is granted when it fits the free scalers and waits when it does not (R14, R15, R23, R24,
R90, R92, R113). -/
def Obligations.ArmTakesTheFirstEntry : Prop :=
  ∀ (ch : Channel) (e : Entry) (rest : List Entry) (s : State),
    (s.chan ch).engine.state = .idle → (s.chan ch).schedule.entries = e :: rest →
    (ahead e.start s.ref.sfc = false ∨ (e.start - s.ref.sfc).toNat ≤ 12) →
    ∃ t r, exec (.arm ch) s = .next t ∧ State.OthersKept ch s t ∧
      t.chan ch =
        { s.chan ch with
          schedule := { (s.chan ch).schedule with entries := rest }
          engine := { (s.chan ch).engine with state := .armed, record := some r }
          tally := false
          fetch := (t.chan ch).fetch
          reporter := (t.chan ch).reporter } ∧
      r =
        { start := e.start, tag := e.tag, slot := e.slot, firstBank := e.firstBank, credit := e.credit,
          watch := e.watch, endAction := e.endAction, lateness := if e.late then e.lateness else 0,
          requested := s.library.need e.slot, granted := r.granted, template := r.template,
          fallbackUsed := r.fallbackUsed, itemsPlayed := 0, endCause := none, latenessTaken := 0 } ∧
      (t.pool.records.get ch).requested = s.library.need e.slot ∧ (t.pool.records.get ch).start = e.start ∧
      (t.pool.records.get ch).granted = r.granted ∧
      (((t.pool.records.get ch).state = .granted ∧ r.granted = s.library.need e.slot) ∨
        ((t.pool.records.get ch).state = .waiting ∧ r.granted = 0 ∧ s.library.need e.slot ≠ 0)) ∧
      (s.pool.queue = [] → (s.pool.records.get ch).granted = 0 →
        let free :=
          6 - (s.pool.records.a.granted + s.pool.records.b.granted + s.pool.records.c.granted +
            s.pool.records.d.granted)
        (s.library.need e.slot ≤ free → (t.pool.records.get ch).state = .granted ∧ t.pool.queue = []) ∧
          (free < s.library.need e.slot → (t.pool.records.get ch).state = .waiting ∧ t.pool.queue = [ch])) ∧
      (if s.library.operatesOn e.slot then
        (t.chan ch).fetch = .setAside ∧ r.template = none ∧ r.fallbackUsed = false ∧
          (t.chan ch).reporter = (s.chan ch).reporter ∧ t.library.fetchQueue = s.library.fetchQueue ∧
          t.library.setAside = s.library.setAside ++ [{ channel := ch, slot := e.slot }]
      else if s.library.operation = none ∧ s.library.fetchQueue = [] then
        (t.chan ch).fetch = .served ∧ r.template = some ((s.library.content e.slot).getD fallbackLayout) ∧
          r.fallbackUsed = (s.library.content e.slot).isNone ∧
          (t.chan ch).reporter =
            (if (s.library.content e.slot).isNone then (s.chan ch).reporter.raise .fallbackUsed
            else (s.chan ch).reporter) ∧
          t.library = s.library
      else
        (t.chan ch).fetch = .queued ∧ r.template = none ∧ r.fallbackUsed = false ∧
          (t.chan ch).reporter = (s.chan ch).reporter ∧ t.library.setAside = s.library.setAside ∧
          t.library.fetchQueue = s.library.fetchQueue ++ [{ channel := ch, slot := e.slot }])

/-- The miss sweep of a busy engine drops every entry whose start is not ahead of the SFC; MISSED is set and the record
holds the last of them. The channel frame event of an IDLE engine, and of an ARMED one whose start is ahead, is the arm
test and the miss sweep with the frame (R14, R16, R25, R153; log entry 20). -/
def Obligations.MissedBusyDropsDueEntries : Prop :=
  ∀ (ch : Channel) (s : State),
    let missed := (s.chan ch).schedule.entries.filter fun e => !ahead e.start s.ref.sfc
    ((s.chan ch).engine.state ≠ .idle → missed ≠ [] →
      exec (.missedBusy ch) s =
        .next
          (s.modChan ch fun c =>
            { c with
              schedule :=
                { c.schedule with entries := c.schedule.entries.filter fun e => ahead e.start s.ref.sfc }
              reporter :=
                { c.reporter with
                  flags := c.reporter.flags ||| Flag.missed.word
                  last :=
                    missed.getLast?.map fun e =>
                      { tag := e.tag, start := e.start, outcome := .missedBusy, endCause := none, itemsPlayed := 0,
                        fallbackUsed := false, scalersGranted := 0, latenessTaken := 0 } } })) ∧
      ((s.chan ch).engine.state ≠ .idle → missed = [] → exec (.missedBusy ch) s = .next s) ∧
      ∀ inp : FrameInputs, (s.chan ch).schedule.Sound s.ref.sfc →
        ((s.chan ch).engine.state = .idle ∨
          (s.chan ch).engine.state = .armed ∧
            ∃ r, (s.chan ch).engine.record = some r ∧ ahead r.start s.ref.sfc = true) →
        ∃ v w t, exec (.arm ch) (s.atFrame ch inp) = .next v ∧ exec (.missedBusy ch) v = .next w ∧
          exec (.channelFrameEvent ch inp) s = .next t ∧ State.FrameTail ch w t

/-! ### The Junction Engine -/

/-- END marks the hold in SQUEEZE, HELD and PROMO_FULL; EXTEND reloads a watch counter in HELD; in the other states
each is answered WRONG_STATE and changes nothing (R34, R36). -/
def Obligations.EndAndExtendAnswerByState : Prop :=
  ∀ (ch : Channel) (m : Match) (s : State),
    let e := (s.chan ch).engine
    (e.state = .squeeze ∨ e.state = .held ∨ e.state = .promoFull →
      exec (.endHold ch m) s =
        .next
          (((s.taking ch).modChan ch fun c =>
            { c with engine := { c.engine with marker := some .endCommand } }).answering ch 0x06 .ok m)) ∧
      (e.state = .idle ∨ e.state = .armed ∨ e.state = .release ∨ e.state = .takeover →
        exec (.endHold ch m) s = .next (s.refusing ch 0x06 .wrongState m)) ∧
      (∀ w, e.state = .held → e.record.bind (·.watch) = some w →
        exec (.extend ch m) s =
          .next
            (((s.taking ch).modChan ch fun c => { c with engine := { c.engine with watch := some w } }).answering ch
              0x07 .ok m)) ∧
      (e.state = .held → e.record.bind (·.watch) = none →
        exec (.extend ch m) s = .next (s.refusing ch 0x07 .ok m)) ∧
      (e.state ≠ .held → exec (.extend ch m) s = .next (s.refusing ch 0x07 .wrongState m))

/-- ABORT ends any junction at its arrival: both banks EMPTY, the load context closed, the record ABORTED, then the arm
test; in IDLE it is answered WRONG_STATE (R44, R46, R85). That the withdrawn claim holds start frame 0 is the model's
choice (log entry 15). -/
def Obligations.AbortWithdrawsTheJunction : Prop :=
  ∀ (ch : Channel) (m : Match) (s : State),
    ((s.chan ch).engine.state = .idle → exec (.abort ch m) s = .next (s.refusing ch 0x08 .wrongState m)) ∧
      ∀ r, (s.chan ch).engine.state ≠ .idle → (s.chan ch).engine.record = some r →
        ∃ u, exec (.abort ch m) s = .next ((armTest ch u).answering ch 0x08 .ok m) ∧
          State.JunctionEnded ch s u (r.outcome .aborted (some .abort)) ∧
          (u.chan ch).reporter.flags = (s.chan ch).reporter.flags ∧
          (u.chan ch).promo = { bank0 := .empty, bank1 := .empty, play := .none } ∧
          (u.chan ch).parser = { (s.chan ch).parser with arm := none, context := none }

/-- The start event of a junction that is not missed, its request granted before or claimed from the free scalers: the
template in use, the scaler assignment, the bank and the counters, SQUEEZE with its move or HELD (R26 to R30, R57, R60,
R61, R77, R93). The row runs the engine's work alone and leaves the first item uncounted (log entry 2); the frame event
that contains it is StartFramesBeginTheJunction. -/
def Obligations.StartEventBeginsTheJunction : Prop :=
  ∀ (ch : Channel) (r : JunctionRecord) (g : Nat) (s : State),
    let c := s.chan ch
    let e := c.engine
    let t0 := r.template.getD fallbackLayout
    let fell := decide (r.template = none) && decide (r.slot ≠ 0)
    let degraded := decide (g < t0.p + t0.q)
    let promoStart := if degraded then fullFrame else t0.prmStart
    let promoTarget := if degraded then fullFrame else t0.prmTarget
    let ready := decide ((c.promo.bank r.firstBank).state = .ready)
    let k0 := min r.lateness t0.mIn
    let q := s.pool.records.get ch
    e.state = .armed → e.record = some r → ahead r.start s.ref.sfc = false →
    (q.state = .granted ∧ q.granted = g ∧ ch ∉ s.pool.queue ∨
      q.state = .waiting ∧ g = min q.requested s.pool.free ∧ 0 < g) →
    ¬ (g = 0 ∧ (r.requested ≠ 0 ∨ t0.pgmTarget ≠ fullFrame)) → c.promo.play.bank = none →
    ∃ t, exec (.startEvent ch) s = .next t ∧ State.OthersKept ch s t ∧
      t.pool.records.get ch = { q with state := .granted, granted := g } ∧ ch ∉ t.pool.queue ∧
      (s.pool.queue = [] ∨ s.pool.queue = [ch] → t.pool.queue = []) ∧
      (r.template ≠ none → t.library = s.library) ∧
      (r.template = none → ∀ f ∈ t.library.fetchQueue ++ t.library.setAside, f.channel ≠ ch) ∧
      t.chan ch =
        { c with
          engine :=
            { (if k0 < t0.mIn then
                { e with
                  state := .squeeze, k := k0, m := t0.mIn
                  move := some
                    { pgm := some { src := fullFrame, dst := t0.pgmTarget }
                      promo := { src := promoStart, dst := promoTarget }, length := t0.mIn, easing := t0.easeIn }
                  pgmRect := some (moveRect k0 t0.mIn t0.easeIn { src := fullFrame, dst := t0.pgmTarget })
                  promoRect := some (moveRect k0 t0.mIn t0.easeIn { src := promoStart, dst := promoTarget }) }
              else
                { e with
                  state := .held, k := 0, m := 0, move := none, watch := r.watch, pgmRect := some t0.pgmTarget,
                  promoRect := some promoTarget, marker := if ready then e.marker else markedListEnd e.marker }) with
              record := some
                { r with
                  template := some t0, fallbackUsed := r.fallbackUsed || fell, granted := g
                  itemsPlayed := if ready then 1 else r.itemsPlayed, latenessTaken := k0 }
              credit := if r.credit = 0 then none else some r.credit
              degraded := degraded
              pgmScaled := decide (t0.pgmTarget ≠ fullFrame)
              promoScaled := decide (t0.q = 1) && !degraded }
          tally := true
          fetch := if r.template = none then .none else c.fetch
          composer := { c.composer with look := .ofTemplate t0 }
          promo := if ready then c.promo.begin r.firstBank else c.promo
          reporter :=
            { c.reporter with
              flags :=
                c.reporter.flags ||| (if fell then Flag.fallbackUsed.word else 0) |||
                  (if degraded then Flag.scalerShort.word else 0) ||| (if ready then 0 else Flag.noPromos.word) } }

/-- A start event that finds no scaler where one is needed ends the junction as MISSED_NO_SCALER with the banks as
they were (R28, R46, R85, R93). That the withdrawn claim holds start frame 0 is the model's choice (log entry 15). -/
def Obligations.StartEventMissesWithoutScaler : Prop :=
  ∀ (ch : Channel) (r : JunctionRecord) (s : State),
    let c := s.chan ch
    let t0 := r.template.getD fallbackLayout
    let fell := decide (r.template = none) && decide (r.slot ≠ 0)
    let q := s.pool.records.get ch
    c.engine.state = .armed → c.engine.record = some r → ahead r.start s.ref.sfc = false →
    (q.state = .waiting ∧ s.pool.free = 0 ∧ r.requested ≠ 0 ∨
      q.state = .granted ∧ q.granted = 0 ∧ t0.pgmTarget ≠ fullFrame) →
    (c.promo.bank0.state ≠ .playing ∧ c.promo.bank1.state ≠ .playing ∧ c.promo.play = .none) →
    ∃ u, exec (.startEvent ch) s = .next (armTest ch u) ∧
      State.JunctionEnded ch s u
        { tag := r.tag, start := r.start, outcome := .missedNoScaler, endCause := r.endCause,
          itemsPlayed := r.itemsPlayed, fallbackUsed := r.fallbackUsed || fell, scalersGranted := 0,
          latenessTaken := r.latenessTaken } ∧
      (u.chan ch).reporter.flags =
        c.reporter.flags ||| (if fell then Flag.fallbackUsed.word else 0) ||| Flag.missed.word ∧
      (u.chan ch).promo = c.promo ∧ (u.chan ch).parser = c.parser

/-- The channel frame event that finds the armed start frame not ahead is the start event, the count of the first item,
the arm test and the miss sweep with the frame: the first item falls by one at the event at which it starts, and
LIST_END is marked where it ends there (R26, R78, R79, R82, R83; log entries 20 and 32). So it is too where the entry
was armed since an ABORT or a reset (log entry 34). -/
def Obligations.StartFramesBeginTheJunction : Prop :=
  ∀ (ch : Channel) (inp : FrameInputs) (r : JunctionRecord) (s : State),
    let v := promoValidity s.ref.rate (s.promoFrames inp.promo)
    (s.chan ch).engine.state = .armed → (s.chan ch).engine.record = some r → ahead r.start s.ref.sfc = false →
    (s.chan ch).schedule.Sound s.ref.sfc → (s.chan ch).promo.play = .none →
    ∃ u d x w t, exec (.startEvent ch) (s.atFrame ch inp) = .next u ∧
      ((u.chan ch).promo.play.cursor = none → d = u.chan ch) ∧
      (∀ b cur it, (u.chan ch).promo.play.bank = some b → (u.chan ch).promo.play.cursor = some cur →
        ((u.chan ch).promo.bank b).items[cur.index]? = some it →
        let cur' := (u.chan ch).promo.shown v b cur it
        d =
          (u.chan ch).listed ((u.chan ch).promo.at b cur' 1) false (decide (cur'.phase = .exhausted))
            (decide (cur'.phase = .exhausted) && ((u.chan ch).promo.bank b).chain)) ∧
      exec (.arm ch) (u.setChan ch d) = .next x ∧ exec (.missedBusy ch) x = .next w ∧
      exec (.channelFrameEvent ch inp) s = .next t ∧ State.FrameTail ch w t

/-- An end cause that restores: RELEASE begins from the current rectangles, over M_out frames from HELD and over the k
reached from SQUEEZE; a restore of length 0 cuts to passthrough and ends the junction as COMPLETED_RESTORE, then the arm
test runs (R38 to R40, R45, R46, R58, R85). The row may be the expiry of the counter that is the cause or the taking. It
runs the engine's work alone and judges the items remaining on the list as it stands (log entry 2); the frame event that
contains it is FramesTakeEndCauses. That the claim withdrawn at the junction end holds start frame 0 is the model's
choice (log entry 15). -/
def Obligations.EndCausesRestore : Prop :=
  ∀ (ch : Channel) (i : Instr) (cause : EndCause) (r : JunctionRecord) (s : State),
    let c := s.chan ch
    let e := c.engine
    let t0 := r.template.getD fallbackLayout
    let length := if e.state = .squeeze then e.k else t0.mOut
    let home := if e.degraded then fullFrame else t0.prmStart
    let pgm : Ends := { src := e.pgmRect.getD fullFrame, dst := fullFrame }
    let promo : Ends := { src := e.promoRect.getD fullFrame, dst := home }
    (e.state = .squeeze ∨ e.state = .held) → e.record = some r → FirstCause e cause → NamesCause ch e i →
    (cause = .listEnd ∨ r.endAction = .restore ∨ c.promo.itemsRemain = false) →
    (0 < length →
      exec i s =
        .next
          (s.modChan ch fun c =>
            { c with
              engine :=
                { e with
                  state := .release, record := some { r with endCause := some cause }, k := 0, m := length
                  move := some { pgm := some pgm, promo := promo, length := length, easing := t0.easeOut }
                  credit := none, watch := none, marker := none
                  pgmRect := some (moveRect 0 length t0.easeOut pgm)
                  promoRect := some (moveRect 0 length t0.easeOut promo) }
              tally := true })) ∧
      (length = 0 →
        ∃ u, exec i s = .next (armTest ch u) ∧
          State.JunctionEnded ch s u (r.outcome .completedRestore (some cause)) ∧
          (u.chan ch).reporter.flags = c.reporter.flags ∧ (u.chan ch).promo = c.promo.spent ∧
          (u.chan ch).parser = c.parser)

/-- An end cause other than LIST_END of a junction with end action TAKEOVER and items remaining takes over: the
programme window is removed and the promo window moves to the full frame over M_out frames, at once with M_out 0 (R39,
R40, R59). The row runs the engine's work alone and judges the items remaining on the list as it stands (log entry 2);
the frame event that contains it is FramesTakeEndCauses. -/
def Obligations.EndCausesTakeOver : Prop :=
  ∀ (ch : Channel) (i : Instr) (cause : EndCause) (r : JunctionRecord) (s : State),
    let c := s.chan ch
    let e := c.engine
    let t0 := r.template.getD fallbackLayout
    let promo : Ends := { src := e.promoRect.getD fullFrame, dst := fullFrame }
    (e.state = .squeeze ∨ e.state = .held) → e.record = some r → FirstCause e cause → NamesCause ch e i →
    cause ≠ .listEnd → r.endAction = .takeover → c.promo.itemsRemain = true →
    exec i s =
      .next
        (s.modChan ch fun c =>
          { c with
            engine :=
              { (if t0.mOut = 0 then
                  { e with
                    state := .promoFull, k := 0, m := 0, move := none, promoRect := some fullFrame }
                else
                  { e with
                    state := .takeover, k := 0, m := t0.mOut
                    move := some { pgm := none, promo := promo, length := t0.mOut, easing := t0.easeOut }
                    promoRect := some (moveRect 0 t0.mOut t0.easeOut promo) }) with
                record := some { r with endCause := some cause }
                credit := none, watch := none, marker := none, pgmRect := none }
            tally := true })

/-- The channel frame event that takes an end cause, with the list as it leaves it: the current item counts and a
FINISHED item's successor starts unless the frame is cut to passthrough; the items remaining are judged after that. It
restores over a move, cuts to passthrough and ends the junction as COMPLETED_RESTORE, or takes over (R38 to R40, R80,
R84). Where the list is exhausted only by a successor that the cut would keep from starting, a free value says whether it
restores (log entry 4). The order of the works is the model's reading (log entry 20), and that the claim withdrawn at the
junction end holds start frame 0 its choice (log entry 15). -/
def Obligations.FramesTakeEndCauses : Prop :=
  ∀ (ch : Channel) (inp : FrameInputs) (cause : EndCause) (r : JunctionRecord) (s0 : State),
    let s := s0.atFrame ch inp
    let c := s.chan ch
    let e := c.engine
    let v := promoValidity s.ref.rate (s.promoFrames inp.promo)
    let t0 := r.template.getD fallbackLayout
    let plays := c.promo.work e.state true v
    let stays := c.promo.work e.state false v
    let length := if e.state = .squeeze then e.k else t0.mOut
    let restores :=
      cause = .listEnd ∨ r.endAction = .restore ∨
        plays.1.itemsRemain = false ∧
          (0 < length ∨ stays.1.itemsRemain = false ∨ Config.restoresOnDoomedSuccessor = true)
    let r' :=
      { r with
        endCause := some cause
        itemsPlayed := if plays.2.started then countedStart r.itemsPlayed else r.itemsPlayed }
    let home := if e.degraded then fullFrame else t0.prmStart
    let pgm : Ends := { src := e.pgmRect.getD fullFrame, dst := fullFrame }
    let back : Ends := { src := e.promoRect.getD fullFrame, dst := home }
    let fill : Ends := { src := e.promoRect.getD fullFrame, dst := fullFrame }
    let word (b : Bool) : BitVec 10 := if b then Flag.bankUnderrun.word else 0
    let goes (e' : Engine) : Prop :=
      ∃ w t,
        exec (.missedBusy ch)
            (s.setChan ch
              { c with
                engine := { e' with record := some r', credit := none, watch := none, marker := none }
                tally := true, promo := plays.1
                reporter := { c.reporter with flags := c.reporter.flags ||| word plays.2.underrun } }) = .next w ∧
          exec (.channelFrameEvent ch inp) s0 = .next t ∧ State.FrameTail ch w t
    (e.state = .squeeze ∨ e.state = .held) → e.record = some r → FirstCause e cause →
    (restores → 0 < length →
      goes
        { e with
          state := .release, k := 0, m := length
          move := some { pgm := some pgm, promo := back, length := length, easing := t0.easeOut }
          pgmRect := some (moveRect 0 length t0.easeOut pgm)
          promoRect := some (moveRect 0 length t0.easeOut back) }) ∧
      (restores → length = 0 → (s0.chan ch).schedule.Sound s0.ref.sfc →
        State.FrameEnds ch inp s0 (r.outcome .completedRestore (some cause)) (word stays.2.underrun)) ∧
      (¬ restores → t0.mOut = 0 →
        goes
          { e with
            state := .promoFull, k := 0, m := 0, move := none, pgmRect := none, promoRect := some fullFrame }) ∧
      (¬ restores → 0 < t0.mOut →
        goes
          { e with
            state := .takeover, k := 0, m := t0.mOut
            move := some { pgm := none, promo := fill, length := t0.mOut, easing := t0.easeOut }
            pgmRect := none, promoRect := some (moveRect 0 t0.mOut t0.easeOut fill) })

/-- The last event of a squeeze with no end cause enters HELD on the targets with the watch counter loaded, an empty
list marking LIST_END; that of a takeover enters PROMO_FULL (R32, R34, R37, R42). The rows run the engine's work alone
and leave the promo list uncounted (log entry 2); the frame events that contain them are RunningFramesGoOn. -/
def Obligations.MoveEndsEnterTheNextState : Prop :=
  ∀ (ch : Channel) (r : JunctionRecord) (s : State),
    let e := (s.chan ch).engine
    let t0 := r.template.getD fallbackLayout
    e.record = some r → e.m ≤ e.k + 1 →
    (e.state = .squeeze → e.marker = none → expires e.credit = false →
      exec (.squeezeMoveEnd ch) s =
        .next
          (s.modChan ch fun c =>
            { c with
              engine :=
                { e with
                  state := .held, k := 0, m := 0, move := none, credit := e.credit.map (· - 1), watch := r.watch
                  pgmRect := some t0.pgmTarget
                  promoRect := some (if e.degraded then fullFrame else t0.prmTarget)
                  marker := if c.promo.play.bank = none then some .listEnd else none }
              tally := true })) ∧
      (e.state = .takeover → e.marker ≠ some .listEnd →
        exec (.takeoverMoveEnd ch) s =
          .next
            (s.modChan ch fun c =>
              { c with
                engine :=
                  { e with
                    state := .promoFull, k := 0, m := 0, move := none, pgmRect := none
                    promoRect := some fullFrame }
                tally := true }))

/-- A completed RELEASE ends the junction as COMPLETED_RESTORE, the end of the list in TAKEOVER and END or LIST_END in
PROMO_FULL as COMPLETED_TAKEOVER; the PLAYING bank is SPENT and the arm test runs. So it is at the row and at the
channel frame event, where a chained last item that reaches 0 at that very event sets BANK_UNDERRUN (R41 to R43, R45,
R46, R82, R85). The rows run the engine's work alone, so they leave the list uncounted and the flags as they stand (log
entry 2); that the withdrawn claim holds start frame 0 is the model's choice (log entry 15), the order of the works in
the frame event its reading (log entry 20). -/
def Obligations.JunctionsEndAndTheEngineArms : Prop :=
  ∀ (ch : Channel) (i : Instr) (o : JunctionOutcome) (r : JunctionRecord) (s : State),
    let e := (s.chan ch).engine
    e.record = some r →
    (i = .releaseMoveEnd ch ∧ e.state = .release ∧ e.m ≤ e.k + 1 ∧ o = .completedRestore ∨
      i = .takeoverListEnd ch ∧ e.state = .takeover ∧ e.marker = some .listEnd ∧ o = .completedTakeover ∨
      i = .promoFullEnd ch ∧ e.state = .promoFull ∧ e.marker ≠ none ∧ o = .completedTakeover) →
    (∃ u, exec i s = .next (armTest ch u) ∧ State.JunctionEnded ch s u (r.outcome o r.endCause) ∧
      (u.chan ch).reporter.flags = (s.chan ch).reporter.flags ∧ (u.chan ch).promo = (s.chan ch).promo.spent ∧
      (u.chan ch).parser = (s.chan ch).parser) ∧
      ∀ (inp : FrameInputs) (s0 : State), s = s0.atFrame ch inp → (s0.chan ch).schedule.Sound s0.ref.sfc →
        let v := promoValidity s.ref.rate (s.promoFrames inp.promo)
        State.FrameEnds ch inp s0 (r.outcome o r.endCause)
          (if ((s.chan ch).promo.work e.state false v).2.underrun then Flag.bankUnderrun.word else 0)

/-! ### The Promo List -/

/-- OPEN_BANK: its tests in their order, and the load context opened on the bank, a context on the other bank dropped
with that bank (R70, R71). -/
def Obligations.OpenBankOpensTheLoad : Prop :=
  ∀ (ch : Channel) (m : Match) (bank count chain : Nat) (b : BankId) (f : Bool) (s : State),
    let p := (s.chan ch).promo
    let refused (code : ResultCode) : Prop :=
      exec (.openBank ch m bank count chain) s = .next (s.refusing ch 0x09 code m)
    (1 < bank ∨ 1 < chain → refused .badField) ∧
      (bank = b.code → chain = bitOf 1 f →
        (count < 1 ∨ 31 < count → refused .badCount) ∧
          (1 ≤ count → count ≤ 31 →
            ((p.bank b).state = .playing → refused .busy) ∧
              ((p.bank b).state ≠ .playing →
                let opened : Bank := { state := .loading, items := [], chain := f }
                let dropped := (s.chan ch).parser.context.any fun x => decide (x.bank ≠ b)
                let other (q : Bank) : Bank := if dropped then .empty else q
                exec (.openBank ch m bank count chain) s =
                  .next
                    (((s.taking ch).modChan ch fun c =>
                      { c with
                        promo :=
                          { c.promo with
                            bank0 := if b = .bank0 then opened else other p.bank0
                            bank1 := if b = .bank1 then opened else other p.bank1 }
                        parser :=
                          { c.parser with
                            context := some { bank := b, remaining := count, countdown := 250 } } }).answering ch
                      0x09 .ok m))))

/-- ITEMS that pass are appended to the bank of the open context and reload its countdown; those that bring the
remaining count to 0 make the bank READY and close the context with the answer SEALED; a failed test is answered in the
order NO_CONTEXT, BAD_COUNT, BAD_FIELD. An item passes the check exactly when none of the failures of R68 applies, and a
GATED item without a limit takes twice its duration, at most 65535 (R67, R68, R72 to R74). -/
def Obligations.ItemsAppendAndSeal : Prop :=
  (∀ r : RawItem,
    let passes :=
      r.source ≤ 2 ∧ r.duration ≠ 0 ∧ r.timing ≤ 1 ∧ (∀ g, r.gateLimit = some g → r.timing = 1 ∧ r.duration ≤ g) ∧
        (∀ a, r.pgmAudio = some a → a ≤ 3) ∧ ∀ a, r.prmAudio = some a → a ≤ 3
    (¬ passes → itemOf r = none) ∧
      (passes → ∃ i, itemOf r = some i ∧ i.tag = r.tag ∧ i.source.code = r.source ∧ i.duration = r.duration ∧
        i.pgmAudio = r.pgmAudio ∧ i.prmAudio = r.prmAudio ∧
        i.timing =
          if r.timing = 0 then .fixed
          else .gated (r.gateLimit.getD (if 65535 < 2 * r.duration then 65535 else 2 * r.duration)))) ∧
  ∀ (ch : Channel) (m : Match) (raw : List RawItem) (s : State), 1 ≤ raw.length → raw.length ≤ 8 →
    let refused (code : ResultCode) : Prop := exec (.items ch m raw) s = .next (s.refusing ch 0x0A code m)
    ((s.chan ch).parser.context = none → refused .noContext) ∧
      ∀ x, (s.chan ch).parser.context = some x →
        (x.remaining < raw.length → refused .badCount) ∧
          (raw.length ≤ x.remaining → (∃ i ∈ raw, itemOf i = none) → refused .badField) ∧
          ∀ its : List Item, raw.map itemOf = its.map some →
            let bank := (s.chan ch).promo.bank x.bank
            (raw.length < x.remaining →
              exec (.items ch m raw) s =
                .next
                  (((s.taking ch).modChan ch fun c =>
                    { c with
                      promo := c.promo.setBank x.bank { bank with items := bank.items ++ its }
                      parser :=
                        { c.parser with
                          context :=
                            some
                              { bank := x.bank, remaining := x.remaining - raw.length, countdown := 250 } } }).answering
                    ch 0x0A .ok m)) ∧
              (raw.length = x.remaining →
                exec (.items ch m raw) s =
                  .next
                    (((s.taking ch).modChan ch fun c =>
                      { c with
                        promo := c.promo.setBank x.bank { bank with items := bank.items ++ its, state := .ready }
                        parser := { c.parser with context := none } }).answering ch 0x0A .sealed m))

/-- CANCEL_LOAD empties the bank of the open context and closes it, without LOAD_TIMEOUT, or is answered NO_CONTEXT; the
event that brings the idle countdown to 0 does the same with LOAD_TIMEOUT. A channel frame event lowers the countdown by
one in every engine state, and at 0 times the load out (R75, R76). -/
def Obligations.LoadsAreDropped : Prop :=
  ∀ (ch : Channel) (m : Match) (s : State),
    ((s.chan ch).parser.context = none → exec (.cancelLoad ch m) s = .next (s.refusing ch 0x0B .noContext m)) ∧
      ∀ x, (s.chan ch).parser.context = some x →
        exec (.cancelLoad ch m) s =
            .next
              (((s.taking ch).modChan ch fun c =>
                { c with
                  promo := c.promo.setBank x.bank { state := .empty, items := [], chain := false }
                  parser := { c.parser with context := none } }).answering ch 0x0B .ok m) ∧
          (x.countdown ≤ 1 →
            exec (.loadTimeout ch) s =
              .next
                (s.modChan ch fun c =>
                  { c with
                    promo := c.promo.setBank x.bank { state := .empty, items := [], chain := false }
                    parser := { c.parser with context := none }
                    reporter :=
                      { c.reporter with flags := c.reporter.flags ||| Flag.loadTimeout.word } })) ∧
          ∀ inp, ∃ t, exec (.channelFrameEvent ch inp) s = .next t ∧
            (t.chan ch).parser.context =
              (if x.countdown ≤ 1 then none else some { x with countdown := x.countdown - 1 }) ∧
            (t.chan ch).reporter.flag .loadTimeout =
              ((s.chan ch).reporter.flag .loadTimeout || decide (x.countdown ≤ 1)) ∧
            (x.countdown ≤ 1 → (s.chan ch).BanksSound →
              (t.chan ch).promo.bank x.bank = { state := .empty, items := [], chain := false })

/-- The event at which a counter of the current item reaches 0: FINISHED where a successor exists, EXHAUSTED where none
does, with LIST_END marked unless the event takes an end cause or ends the junction, BANK_UNDERRUN where the bank is
chained (R78, R79, R82, R83, R37). The rows run the list's work alone (log entry 2); a channel frame event that leaves
the junction running leaves the list so too. -/
def Obligations.ItemsExpire : Prop :=
  ∀ (ch : Channel) (offered : PromoFrames) (i : Instr) (b : BankId) (cur : Cursor) (it : Item) (s : State),
    let c := s.chan ch
    let v := promoValidity s.ref.rate (s.promoFrames offered)
    let counted := countedCursor cur (it.source.valid v)
    let cur' := c.promo.shown v b cur it
    let ended := decide (cur'.phase = .exhausted)
    let left (marks : Bool) : ChannelState :=
      c.listed (c.promo.at b cur' c.promo.play.started) false (ended && marks) (ended && (c.promo.bank b).chain)
    let judged : State := { s with aligned := some (s.promoFrames offered) }
    AdvancesItems c.engine → c.promo.play.bank = some b → c.promo.play.cursor = some cur →
    (c.promo.bank b).items[cur.index]? = some it → cur.phase = .running →
    (i = .itemDurationExpiry ch offered ∧ counted.duration = 0 ∨
      i = .gateLimitExpiry ch offered ∧ counted.gate = some 0) →
    (RunsOn c.engine →
      exec i s = .next (judged.setChan ch (left true)) ∧
        ∀ inp s0, s = s0.atFrame ch inp → State.FrameLists ch inp s0 (left true)) ∧
      (¬ RunsOn c.engine → exec i s = .next (judged.setChan ch (left false)))

/-- The successor of a FINISHED item: the next of its bank, or the first of a READY follower with the banks swapped, or
none where the follower is no longer READY, which is BANK_UNDERRUN and the end of the list. It counts at the event at
which it starts, and at a cut to passthrough it does not start (R78 to R80, R82, R83, R37). The row runs the list's work
alone (log entry 2); a channel frame event that leaves the junction running leaves the list so too. -/
def Obligations.SuccessorsStart : Prop :=
  ∀ (ch : Channel) (offered : PromoFrames) (b : BankId) (cur : Cursor) (r : JunctionRecord) (s : State),
    let c := s.chan ch
    let e := c.engine
    let v := promoValidity s.ref.rate (s.promoFrames offered)
    let length := if e.state = .squeeze then e.k else (r.template.getD fallbackLayout).mOut
    let row := exec (.successorStart { channel := ch, offered := offered }) s
    let judged : State := { s with aligned := some (s.promoFrames offered) }
    let leaves (left : Bool → ChannelState) : Prop :=
      (RunsOn e →
        row = .next (judged.setChan ch (left true)) ∧
          ∀ inp s0, s = s0.atFrame ch inp → State.FrameLists ch inp s0 (left true)) ∧
        ∀ cause, (e.state = .squeeze ∨ e.state = .held) → FirstCause e cause → 0 < length →
          row = .next (judged.setChan ch (left false))
    let starts (p : PromoList) (b : BankId) (j : Nat) (i : Item) : Prop :=
      let cur' := p.shown v b (startingCursor j i) i
      let ended := decide (cur'.phase = .exhausted)
      leaves fun marks =>
        c.listed (p.at b cur' (countedStart c.promo.play.started)) true (ended && marks)
          (ended && (p.bank b).chain)
    AdvancesItems e → e.record = some r → c.promo.play.bank = some b → c.promo.play.cursor = some cur →
    cur.phase = .finished →
    (∀ i, (c.promo.bank b).items[cur.index + 1]? = some i → starts c.promo b (cur.index + 1) i) ∧
      ((c.promo.bank b).items.length ≤ cur.index + 1 → (c.promo.bank b.other).state = .ready →
        ∀ i, (c.promo.bank b.other).items[0]? = some i →
          starts ((c.promo.setBankState b .spent).setBankState b.other .playing) b.other 0 i) ∧
      ((c.promo.bank b).items.length ≤ cur.index + 1 → (c.promo.bank b.other).state ≠ .ready →
        leaves fun marks =>
          c.listed (c.promo.at b { cur with phase := .exhausted } c.promo.play.started) false marks true) ∧
      ((e.state = .takeover ∧ e.marker = some .listEnd) ∨ (e.state = .promoFull ∧ e.marker ≠ none) ∨
          ((e.state = .squeeze ∨ e.state = .held) ∧ length = 0 ∧
            ∃ cause, FirstCause e cause ∧ (cause = .listEnd ∨ r.endAction = .restore)) →
        row = .next s)

/-! ### The Scaler Pool -/

/-- The grant test grants a lone waiting request in full when it fits the free scalers, and nothing when it does not
(R92). -/
def Obligations.ScalerGrantServesTheHead : Prop :=
  ∀ (ch : Channel) (s : State), s.pool.queue = [ch] →
    let q := s.pool.records.get ch
    (q.requested ≤ 6 - (s.pool.records.a.granted + s.pool.records.b.granted + s.pool.records.c.granted +
        s.pool.records.d.granted) →
      exec .scalerGrant s =
        .next
          ({ s with
            pool :=
              { records := s.pool.records.set ch { q with state := .granted, granted := q.requested }, queue := [] } }.modChan
            ch fun c => { c with engine := c.engine.modRecord ({ · with granted := q.requested }) })) ∧
      (6 - (s.pool.records.a.granted + s.pool.records.b.granted + s.pool.records.c.granted +
          s.pool.records.d.granted) < q.requested → exec .scalerGrant s = .next s)

/-! ### The Template Library -/

/-- A TEMPLATE_WRITE whose template fails a test of R102, or whose slot is 0 or above 40, is answered BAD_FIELD with
nothing changed, as is a TEMPLATE_ERASE of such a slot; a template record that passes every test is the template its
codes name (R102, R103, R108). -/
def Obligations.TemplatesAreValidated : Prop :=
  ∀ (ch : Channel) (m : Match) (slot : Nat) (raw : RawTemplate) (s : State),
    (s.management.get ch = true → ¬ TemplatePasses raw ∨ slot = 0 ∨ 40 < slot →
      exec (.templateWrite ch m slot raw) s = .next (s.refusing ch 0x21 .badField m)) ∧
      (s.management.get ch = true → slot = 0 ∨ 40 < slot →
        exec (.templateErase ch m slot) s = .next (s.refusing ch 0x22 .badField m)) ∧
      (TemplatePasses raw → ∃ t, templateOf raw = some t ∧ t.raw = raw)

/-- Stores and erases: BUSY while an operation is in flight, PROTECTED with STORE_FAIL for a slot in the protected set,
otherwise accepted with the slot UNDER_OPERATION; a volatile slot is changed at once (R106 to R108, R110). -/
def Obligations.StoresAndErasesAreTaken : Prop :=
  ∀ (ch : Channel) (m : Match) (raw : RawTemplate) (t : Template) (i : SlotIndex) (j : Fin 8) (k : Nat)
    (op : Operation) (cmd : Instr) (s : State),
    s.management.get ch = true → templateOf raw = some t →
    let l := s.library
    (cmd = .templateWrite ch m (i.val + 1) raw ∧ k = 0x21 ∧ op = .write i t ∨
        cmd = .templateErase ch m (i.val + 1) ∧ k = 0x22 ∧ op = .erase i →
      (l.operation ≠ none → exec cmd s = .next (s.refusing ch k .busy m)) ∧
        (l.operation = none → s.protection.protects i = true →
          exec cmd s =
            .next
              ({ s.taking ch with library := { l with storeFail := true } }.answering ch k .protectedSlot m)) ∧
        (l.operation = none → s.protection.protects i = false →
          exec cmd s =
            .next
              ({ s.taking ch with
                library :=
                  { l with
                    stored := l.stored.set i.val .underOperation i.isLt
                    operation := some { op := op, progress := 0 }, suspended := false } }.answering ch k .ok m))) ∧
      exec (.templateWrite ch m (j.val + 33) raw) s =
        .next
          ({ s.taking ch with
            library := { l with volatileSlots := l.volatileSlots.set j.val (some t) j.isLt } }.answering ch 0x21 .ok
            m) ∧
      exec (.templateErase ch m (j.val + 33)) s =
        .next
          ({ s.taking ch with
            library := { l with volatileSlots := l.volatileSlots.set j.val none j.isLt } }.answering ch 0x22 .ok m)

/-- A library frame event that finds the fetch queue not empty serves its head: a VALID slot's template, or the fallback
layout with FALLBACK_USED; the operation in flight makes no progress (R113, R114). -/
def Obligations.LibraryServesTheQueueHead : Prop :=
  ∀ (i : Instr) (f : Fetch) (rest : List Fetch) (s : State), s.library.fetchQueue = f :: rest →
    (i = .libraryFrameEvent ∨ i = .fetchServed f.channel) →
    let content := s.library.content f.slot
    exec i s =
      .next
        ({ s with
          library := { s.library with fetchQueue := rest, suspended := s.library.operation.isSome } }.modChan f.channel
          fun c =>
            { c with
              fetch := .served
              engine :=
                c.engine.modRecord fun r =>
                  { r with
                    template := some (content.getD fallbackLayout)
                    fallbackUsed := r.fallbackUsed || content.isNone }
              reporter :=
                if content.isNone then { c.reporter with flags := c.reporter.flags ||| Flag.fallbackUsed.word }
                else c.reporter })

/-- With no fetch queued the operation in flight progresses by one, and completes at its length: a WRITE makes its slot
VALID, an ERASE BLANK, both clearing STORE_FAIL and serving the fetches set aside on the slot; a PROTECT_SET commits its
record, the guard state following unless FROZEN (R104, R111, R112, R115, R129). -/
def Obligations.OperationsProgressAndComplete : Prop :=
  ∀ (i : Instr) (fl : InFlight) (s : State), s.library.fetchQueue = [] → s.library.operation = some fl →
    let l := s.library
    (fl.progress + 1 < fl.op.length → i = .libraryFrameEvent →
      exec i s =
        .next
          { s with
            library :=
              { l with operation := some { fl with progress := fl.progress + 1 }, suspended := false } }) ∧
      (fl.op.length ≤ fl.progress + 1 →
        (i = .libraryFrameEvent ∨ i = .operationComplete ∨
          ∃ f ∈ l.setAside, i = .fetchServed f.channel) →
        (∀ (k : SlotIndex) (result : StoredSlot) (served : Template) (failed : Bool),
          ((∃ t, fl.op = .write k t ∧ result = .valid t ∧ served = t ∧ failed = false) ∨
            (fl.op = .erase k ∧ result = .blank ∧ served = fallbackLayout ∧ failed = true)) →
          (∀ f ∈ l.setAside, f.slot = k.val + 1) →
          ∃ t, exec i s = .next t ∧
            t =
              { s with
                library :=
                  { l with
                    stored := l.stored.set k.val result k.isLt, operation := none, setAside := []
                    storeFail := false, suspended := false }
                channels := t.channels } ∧
            ∀ ch,
              t.chan ch =
                if ch ∈ l.setAside.map Fetch.channel then
                  { s.chan ch with
                    fetch := .served
                    engine :=
                      (s.chan ch).engine.modRecord fun r =>
                        { r with template := some served, fallbackUsed := r.fallbackUsed || failed }
                    reporter :=
                      { (s.chan ch).reporter with
                        flags :=
                          (s.chan ch).reporter.flags ||| (if failed then Flag.fallbackUsed.word else 0) } }
                else s.chan ch) ∧
          ∀ p, fl.op = .protectSet p → l.setAside = [] →
            exec i s =
              .next
                { s with
                  library := { l with operation := none, suspended := false }
                  protection :=
                    { s.protection with
                      record := p
                      guardState :=
                        if s.protection.guardState = .frozen then .frozen
                        else match p.storedGuard with
                          | .opened => .opened
                          | .guarded => .guarded } })

/-! ### Library Protection -/

/-- The protected set: in MODE RANGE the run of SIZE_CODE at the end SIDE names, or with COMPLEMENT every other slot; in
MODE INDIVIDUAL the slots whose lock is set. FREEZE makes the guard FROZEN in every guard state and at every LIBGUARD
level, and the protected set stands; a change of LIBGUARD changes the sense alone (R122 to R124, R127). -/
def Obligations.ProtectedSetAndTheGuard : Prop :=
  (∀ (p : LibraryProtection) (i : SlotIndex) (n : Nat),
    [0, 1, 2, 4, 8, 16, 32][p.record.sizeCode]? = some n →
    let slot := i.val + 1
    let inRun := (p.record.side = .low ∧ 1 ≤ slot ∧ slot ≤ n) ∨ (p.record.side = .high ∧ 33 ≤ slot + n ∧ slot ≤ 32)
    (p.record.mode = .range → p.record.complement = false → (p.protects i = true ↔ inRun)) ∧
      (p.record.mode = .range → p.record.complement = true → (p.protects i = true ↔ ¬ inRun)) ∧
      (p.record.mode = .individual → (p.protects i = true ↔ p.locks.get i = true))) ∧
  ∀ (ch : Channel) (m : Match) (level : Bool) (s : State),
    (s.management.get ch = true →
      exec (.freeze ch m) s =
        .next
          ({ s.taking ch with protection := { s.protection with guardState := .frozen } }.answering ch 0x28 .ok m)) ∧
      exec (.libguardChange level) s = .next { s with protection := { s.protection with libguard := level } } ∧
      ∀ i, LibraryProtection.protects { s.protection with guardState := .frozen, libguard := level } i =
        s.protection.protects i

/-- The lock commands: BAD_FIELD for a number outside 1 to 32, then the guard test, then the lock or every lock set or
cleared; in MODE INDIVIDUAL LOCK_ALL protects every stored slot and UNLOCK_ALL none (R124 to R126). -/
def Obligations.LockCommandsChangeTheLocks : Prop :=
  ∀ (ch : Channel) (m : Match) (slot : Nat) (s : State), s.management.get ch = true →
    let p := s.protection
    let passes := p.guardState = .opened ∨ (p.guardState = .guarded ∧ p.libguard = false)
    let code : ResultCode := if p.guardState = .frozen then .frozen else .guarded
    let locked (v : Vector Bool 32) (kind : Nat) : State :=
      { s.taking ch with protection := { p with locks := v } }.answering ch kind .ok m
    (slot < 1 ∨ 32 < slot →
      exec (.lockSlot ch m slot) s = .next (s.refusing ch 0x24 .badField m) ∧
        exec (.unlockSlot ch m slot) s = .next (s.refusing ch 0x25 .badField m)) ∧
      (¬ passes →
        (1 ≤ slot → slot ≤ 32 →
          exec (.lockSlot ch m slot) s = .next (s.refusing ch 0x24 code m) ∧
            exec (.unlockSlot ch m slot) s = .next (s.refusing ch 0x25 code m)) ∧
          exec (.lockAll ch m) s = .next (s.refusing ch 0x26 code m) ∧
          exec (.unlockAll ch m) s = .next (s.refusing ch 0x27 code m)) ∧
      (passes →
        (∀ i : SlotIndex, slot = i.val + 1 →
          exec (.lockSlot ch m slot) s = .next (locked (p.locks.set i.val true i.isLt) 0x24) ∧
            exec (.unlockSlot ch m slot) s = .next (locked (p.locks.set i.val false i.isLt) 0x25)) ∧
          exec (.lockAll ch m) s = .next (locked (Vector.replicate 32 true) 0x26) ∧
          exec (.unlockAll ch m) s = .next (locked (Vector.replicate 32 false) 0x27)) ∧
      (p.record.mode = .individual → ∀ i,
        LibraryProtection.protects { p with locks := Vector.replicate 32 true } i = true ∧
          LibraryProtection.protects { p with locks := Vector.replicate 32 false } i = false)

/-- PROTECT_SET: field checks, guard test, BUSY, in that order, or the carried part staged as the operation in flight
with the record in force unchanged (R109, R128). -/
def Obligations.ProtectSetIsStaged : Prop :=
  ∀ (ch : Channel) (m : Match) (r : RawProtection) (s : State), s.management.get ch = true →
    let g := s.protection.guardState
    let bad := 1 < r.mode ∨ 1 < r.side ∨ 6 < r.sizeCode ∨ 1 < r.complement ∨ 1 < r.storedGuard
    let refused (code : ResultCode) : Prop := exec (.protectSet ch m r) s = .next (s.refusing ch 0x23 code m)
    (bad → refused .badField) ∧
      (¬ bad → g = .frozen → refused .frozen) ∧
      (¬ bad → g = .guarded → s.protection.libguard = true → refused .guarded) ∧
      (¬ bad → g = .opened ∨ (g = .guarded ∧ s.protection.libguard = false) →
        (s.library.operation ≠ none → refused .busy) ∧
          (s.library.operation = none →
            ∃ p : Protection,
              p.mode = (if r.mode = 0 then .range else .individual) ∧ p.side = (if r.side = 0 then .low else .high) ∧
                p.sizeCode = r.sizeCode ∧ p.complement = decide (r.complement = 1) ∧
                p.storedGuard = (if r.storedGuard = 0 then .opened else .guarded) ∧
                exec (.protectSet ch m r) s =
                  .next
                    ({ s.taking ch with
                      library :=
                        { s.library with
                          operation := some { op := .protectSet p, progress := 0 }, suspended := false } }.answering ch
                      0x23 .ok m)))

/-! ### The reference and the frame count -/

/-- A reference frame event advances the SFC by one modulo 2^32, keeps the schedules in order against it and lets the
built frames leave; while the oscillator is held back it locks the part, and at the loss of REF it unlocks it (R4, R148,
R149, R155, R157). That the event of a part held back is the REF frame start that locks it is the model's reading (log
entry 22), as is which row stands for which event (log entry 2). -/
def Obligations.ReferenceFramesAdvanceTheCount : Prop :=
  ∀ s : State,
    let opened (r : RefCounter) (t : State) : Prop :=
      t = { s with ref := r, aligned := none, channels := t.channels } ∧
        ∀ ch,
          t.chan ch =
            { s.chan ch with
              schedule :=
                { (s.chan ch).schedule with
                  entries := orderEntries (s.ref.sfc + 1) (s.chan ch).schedule.entries }
              output := { (s.chan ch).output with built := none, leaving := (s.chan ch).output.built } }
    let locks := s.ref.state = .freeRun ∧ s.ref.qualifying = some 8
    (¬ locks →
      ∃ t, exec .referenceFrameEvent s = .next t ∧ opened { s.ref with sfc := s.ref.sfc + 1 } t) ∧
      (locks →
        ∃ t, exec .referenceFrameEvent s = .next t ∧
          opened { s.ref with sfc := s.ref.sfc + 1, state := .locked, qualifying := none, refLost := false } t) ∧
      (s.ref.state = .locked →
        ∃ t, exec .refLoss s = .next t ∧
          opened { s.ref with sfc := s.ref.sfc + 1, state := .freeRun, qualifying := some 0, refLost := true } t)

/-- A REF frame start: in FREE_RUN one of a REF at the strapped rate counts towards qualification, and with the eighth,
or with one that finds the oscillator held back, takes the reference frame event and locks once half a frame has passed;
one of a REF at another rate changes nothing (log entry 31). In LOCKED it takes the event within one-eighth of a frame
of the due instant. A missing one ends the qualification, and an oscillator that was held back takes an event that is
overdue. Times are operands in 65536ths of a frame, the model's choice (R147 to R149; log entries 6 and 22). -/
def Obligations.ReferenceIsQualified : Prop :=
  ∀ (start : RefStart) (sinceEvent : Nat) (s : State),
    let near (n : Nat) : Prop := 57344 ≤ n ∧ n ≤ 73728
    let n := s.ref.qualifying.getD 0
    let count := if 57344 ≤ start.since ∧ start.since ≤ 73728 then (if n < 8 then n + 1 else 8) else 1
    let event (r : RefCounter) : State :=
      let t := openFrame s
      { t with ref := { r with sfc := s.ref.sfc + 1 } }
    (s.ref.state = .freeRun →
      (start.rate = some s.ref.rate →
        (count = 8 ∨ s.ref.qualifying = some 8 → 32768 ≤ sinceEvent →
          exec (.refFrameStart start sinceEvent) s =
            .next (event { s.ref with state := .locked, qualifying := none, refLost := false })) ∧
          ((count < 8 ∧ s.ref.qualifying ≠ some 8) ∨ sinceEvent < 32768 →
            exec (.refFrameStart start sinceEvent) s =
              .next { s with ref := { s.ref with qualifying := some count } })) ∧
        (start.rate ≠ some s.ref.rate → exec (.refFrameStart start sinceEvent) s = .next s) ∧
        (s.ref.qualifying = some 8 → 65536 ≤ sinceEvent →
          exec (.refQualifyMiss sinceEvent) s = .next (event { s.ref with qualifying := some 0 })) ∧
        (s.ref.qualifying ≠ some 8 ∨ sinceEvent < 65536 →
          exec (.refQualifyMiss sinceEvent) s = .next { s with ref := { s.ref with qualifying := some 0 } })) ∧
      (s.ref.state = .locked →
        (near sinceEvent → exec (.refFrameStart start sinceEvent) s = .next (openFrame s)) ∧
          (¬ near sinceEvent → exec (.refFrameStart start sinceEvent) s = .next s) ∧
          exec (.refQualifyMiss sinceEvent) s = .next s)

/-- SET_TIME replaces the SFC, sends its notices and is answered OK: on every channel TIME_JUMP is set, an entry that is
neither ahead of nor equal to the new value is missed, the last of them in the order held before standing in the record
(log entry 28), those kept are on time, an IDLE channel runs the arm test on them, an ARMED junction keeps its start
frame with lateness 0, and a running one goes on (R14, R17, R18, R97, R151). -/
def Obligations.SetTimeJumpsEveryChannel : Prop :=
  ∀ (ch : Channel) (m : Match) (v : FrameValue) (s : State), s.management.get ch = true →
    ∃ t, exec (.setTime ch m v) s = .next t ∧ t.ref = { s.ref with sfc := v } ∧ t.protection = s.protection ∧
      t.management = s.management ∧ t.aligned = s.aligned ∧ t.pending = s.pending ∧
      t.library =
        { s.library with fetchQueue := t.library.fetchQueue, setAside := t.library.setAside } ∧
      ∀ c,
        let x := s.chan c
        let y := t.chan c
        let kept (e : Entry) : Prop := ahead e.start v = true ∨ e.start = v
        let onTime (e : Entry) : Entry := { e with late := false, lateness := 0 }
        let missed := x.schedule.entries.filter fun e => !(ahead e.start v || decide (e.start = v))
        y.reporter.results =
            (if c = ch then (x.reporter.append { kind := 0x20, code := .ok, how := m }).results
            else x.reporter.results) ∧
          y.reporter.last =
            (if missed = [] then x.reporter.last
            else
              missed.getLast?.map fun e =>
                { tag := e.tag, start := e.start, outcome := .missedTimeJump, endCause := none, itemsPlayed := 0,
                  fallbackUsed := false, scalersGranted := 0, latenessTaken := 0 }) ∧
          (x.engine.state = .idle → (∀ e ∈ x.schedule.entries, kept e → 12 < (e.start - v).toNat) →
            y.engine.state = .idle ∧ y.fetch = x.fetch ∧
              ∀ e ∈ x.schedule.entries, kept e → onTime e ∈ y.schedule.entries) ∧
          (x.engine.state = .idle → x.schedule.Sound s.ref.sfc →
            ∀ e ∈ x.schedule.entries, kept e → (e.start - v).toNat ≤ 12 →
              (∀ f ∈ x.schedule.entries, kept f → (e.start - v).toNat ≤ (f.start - v).toNat) →
              y.engine.state = .armed ∧
                (∃ r, y.engine.record = some r ∧ r.start = e.start ∧ r.tag = e.tag ∧ r.slot = e.slot ∧
                  r.firstBank = e.firstBank ∧ r.credit = e.credit ∧ r.watch = e.watch ∧
                  r.endAction = e.endAction ∧ r.lateness = 0) ∧
                onTime e ∉ y.schedule.entries ∧
                ∀ f ∈ x.schedule.entries, kept f → f ≠ e → onTime f ∈ y.schedule.entries) ∧
          y.reporter.flag .timeJump = true ∧
          ((∃ e ∈ x.schedule.entries, ¬ kept e) → y.reporter.flag .missed = true) ∧
          (∀ e ∈ y.schedule.entries, kept e ∧
            ∃ e0 ∈ x.schedule.entries, e = { e0 with late := false, lateness := 0 }) ∧
          (∀ e ∈ x.schedule.entries, kept e → x.engine.state ≠ .idle →
            { e with late := false, lateness := 0 } ∈ y.schedule.entries) ∧
          y.schedule.tolerance = x.schedule.tolerance ∧ y.promo = x.promo ∧ y.composer = x.composer ∧
          y.output = x.output ∧
          (x.engine.state ≠ .idle → x.engine.state ≠ .armed → (y.upToGrant).engine = (x.upToGrant).engine) ∧
          ∀ r, x.engine.state = .armed → x.engine.record = some r →
            (y.upToGrant).engine =
              { x.engine with record := some { r with lateness := 0, granted := 0 } }

/-! ### The Control Parser and the resets -/

/-- SET_UNIT replaces the five addressing settings together, and SET_MANAGEMENT the four flags together; a value that
would break a limit is answered BAD_FIELD with nothing changed (R168, R169). -/
def Obligations.UnitAndManagementAreReplacedWhole : Prop :=
  ∀ (ch : Channel) (m : Match) (u : RawUnit) (flags : Byte) (s : State),
    let bad := u.primaryId = 0 ∨ 255 ≤ u.primaryId ∨ 255 ≤ u.secondId ∨ u.mask = 0 ∨ 255 < u.mask ∨ 1 < u.allCall ∨
      1 < u.consume
    (bad → exec (.setUnit ch m u) s = .next (s.refusing ch 0x0C .badField m)) ∧
      (¬ bad →
        exec (.setUnit ch m u) s =
          .next
            (((s.taking ch).modChan ch fun c =>
              { c with
                parser :=
                  { c.parser with
                    addressing :=
                      { primaryId := BitVec.ofNat 8 u.primaryId, secondId := BitVec.ofNat 8 u.secondId,
                        mask := BitVec.ofNat 8 u.mask, allCall := decide (u.allCall = 1),
                        consume := decide (u.consume = 1) } } }).answering ch 0x0C .ok m)) ∧
      (s.management.get ch = true →
        (flags &&& 0x0F = 0 → exec (.setManagement ch m flags) s = .next (s.refusing ch 0x29 .badField m)) ∧
          (flags &&& 0x0F ≠ 0 →
            exec (.setManagement ch m flags) s =
              .next
                ({ s.taking ch with
                  management :=
                    { a := flags.getLsbD 0, b := flags.getLsbD 1, c := flags.getLsbD 2,
                      d := flags.getLsbD 3 } }.answering ch 0x29 .ok m)))

/-- RESET_ARM sets the arm with a window of 2 after its tests; a channel frame event lowers the window by one in every
engine state, and the event that finds it at 1 clears the arm; a RESET that finds no arm of its scope is answered
NOT_ARMED and resets nothing (R171, R172). -/
def Obligations.ResetArmIsTestedAndExpires : Prop :=
  ∀ (ch : Channel) (m : Match) (scope : Nat) (sc : Scope) (s : State),
    let manages := s.management.get ch
    let arm := (s.chan ch).parser.arm
    let named := (scope = 0 ∧ sc = .channel) ∨ (scope = 1 ∧ sc = .part)
    (1 < scope →
      exec (.resetArm ch m scope) s = .next (s.refusing ch 0x0F .badField m) ∧
        exec (.reset ch m scope) s = .next (s.refusing ch 0x10 .badField m)) ∧
      (scope = 1 → manages = false →
        exec (.resetArm ch m scope) s = .next (s.refusing ch 0x0F .notManager m) ∧
          exec (.reset ch m scope) s = .next (s.refusing ch 0x10 .notManager m)) ∧
      (named → (sc = .part → manages = true) →
        exec (.resetArm ch m scope) s =
            .next
              (((s.taking ch).modParser ch ({ · with arm := some { scope := sc, window := 2 } })).answering ch 0x0F .ok
                m) ∧
          ((∀ a, arm = some a → a.scope ≠ sc) →
            exec (.reset ch m scope) s = .next (s.refusing ch 0x10 .notArmed m))) ∧
      ∀ a, arm = some a →
        (a.window ≤ 1 → exec (.resetArmExpiry ch) s = .next (s.modParser ch ({ · with arm := none }))) ∧
          ∀ inp, ∃ t, exec (.channelFrameEvent ch inp) s = .next t ∧
            (t.chan ch).parser.arm = if a.window ≤ 1 then none else some { a with window := a.window - 1 }

/-- An armed RESET of CHANNEL scope returns its channel to its reset values and withdraws its claims, its addressing and
packet count kept, and its answer is the first entry of the cleared result list (R20, R47, R86, R96, R99, R116, R133,
R159, R172, R175). That the request record holds start frame 0 is the model's choice (log entry 15), and that the output
frames stand its reading (log entry 18). -/
def Obligations.ChannelResetClearsTheChannel : Prop :=
  ∀ (ch : Channel) (m : Match) (a : ResetArm) (s : State), (s.chan ch).parser.arm = some a → a.scope = .channel →
    ∃ t, exec (.reset ch m 0) s = .next t ∧ State.OthersKept ch s t ∧
      t.pool.records.get ch = { state := .none, requested := 0, start := 0, granted := 0 } ∧ ch ∉ t.pool.queue ∧
      (∀ f ∈ t.library.fetchQueue ++ t.library.setAside, f.channel ≠ ch) ∧
      t.chan ch =
        { schedule := { entries := [], tolerance := 2 }
          engine := .idle
          promo := .atReset
          composer := .atReset
          parser := { (s.chan ch).parser with skip := false, arm := none, context := none }
          reporter :=
            { flags := 0, results := [{ kind := 0x10, code := .ok, how := m }], omitted := false, last := none,
              readback := none }
          fetch := .none
          tally := false
          output := (s.chan ch).output }

/-- An armed RESET of PART scope from a manager resets every channel and every part-wide block but the counter: an
operation in flight is abandoned and its slot INVALID, volatile slots blanked, every lock set (R99, R120, R131, R146,
R159, R172). That the request records hold start frame 0 is the model's choice (log entry 15); that the LIBGUARD sense,
the output frames and the judgement of the promo inputs stand is its reading (log entries 8, 18 and 5). -/
def Obligations.PartResetClearsThePart : Prop :=
  ∀ (ch : Channel) (m : Match) (a : ResetArm) (s : State), (s.chan ch).parser.arm = some a → a.scope = .part →
    s.management.get ch = true →
    ∃ t, exec (.reset ch m 1) s = .next t ∧ t.ref = s.ref ∧ t.pool = .atReset ∧
      t.protection = { s.protection with locks := Vector.replicate 32 true } ∧
      t.management = { a := true, b := false, c := false, d := false } ∧ t.aligned = s.aligned ∧
      t.freeCount = s.freeCount ∧
      t.pending = s.pending ∧
      (∀ i, t.library.storedSlot i =
        if s.library.storedSlot i = .underOperation then .invalid else s.library.storedSlot i) ∧
      (∀ j, t.library.volatileSlots.get j = none) ∧ t.library.operation = none ∧ t.library.fetchQueue = [] ∧
      t.library.setAside = [] ∧ t.library.suspended = false ∧
      (t.library.storeFail = true ↔
        s.library.storeFail = true ∨ ∃ fl i, s.library.operation = some fl ∧ fl.op.slot = some i) ∧
      ∀ c,
        t.chan c =
          { schedule := { entries := [], tolerance := 2 }
            engine := .idle
            promo := .atReset
            composer := .atReset
            parser :=
              { addressing := .default c, packetCount := (s.chan c).parser.packetCount, skip := false, arm := none,
                context := none }
            reporter :=
              { flags := 0, results := if c = ch then [{ kind := 0x10, code := .ok, how := m }] else [],
                omitted := false, last := none, readback := none }
            fetch := .none
            tally := false
            output := (s.chan c).output }

/-- POWER_ON reads the straps and leaves the part in FREE_RUN at SFC 0 with every block at its power-on values, the
stored slots and the nonvolatile protection part kept, a slot under operation INVALID, every lock set and the guard
state at STORED_GUARD (R20, R47, R86, R99, R119, R131, R133, R146, R147, R159, R175). That the LIBGUARD sense stands is
the model's reading (log entry 8); that no output frame stands is its choice (log entry 18) and is not stated. -/
def Obligations.PowerOnStartsThePart : Prop :=
  ∀ (frs1 frs0 : Bool) (s : State), ∃ t, exec (.powerOn frs1 frs0) s = .next t ∧
    t.ref =
      { rate := if frs1 then (if frs0 then .r59 else .r50) else (if frs0 then .r29 else .r25)
        state := .freeRun, qualifying := some 0, sfc := 0, refLost := true } ∧
    (∀ c, (t.pool.records.get c).state = .none ∧ (t.pool.records.get c).requested = 0 ∧
      (t.pool.records.get c).granted = 0) ∧ t.pool.queue = [] ∧
    (∀ i, t.library.storedSlot i =
      if s.library.storedSlot i = .underOperation then .invalid else s.library.storedSlot i) ∧
    (∀ j, t.library.volatileSlots.get j = none) ∧ t.library.operation = none ∧ t.library.fetchQueue = [] ∧
    t.library.setAside = [] ∧ t.library.storeFail = false ∧ t.library.suspended = false ∧
    t.protection =
      { s.protection with
        locks := Vector.replicate 32 true
        guardState := match s.protection.record.storedGuard with
          | .opened => .opened
          | .guarded => .guarded } ∧
    t.management = { a := true, b := false, c := false, d := false } ∧ t.aligned = none ∧ t.pending = s.pending ∧
    ∀ c,
      t.chan c =
        { schedule := { entries := [], tolerance := 2 }
          engine := .idle
          promo := .atReset
          composer := .atReset
          parser := { addressing := .default c, packetCount := 0, skip := false, arm := none, context := none }
          reporter := { flags := 0, results := [], omitted := false, last := none, readback := none }
          fetch := .none
          tally := false
          output := (t.chan c).output }

/-! ### The Status Reporter -/

/-- CLEAR_EVENTS clears exactly the flags of its mask; READBACK fills the section with what it finds, empties it where
it finds nothing, and leaves it on a bad key (R1, R87, R105, R177, R179). -/
def Obligations.ClearEventsAndReadback : Prop :=
  ∀ (ch : Channel) (m : Match) (mask : BitVec 16) (a b : Nat) (s : State),
    let c := s.chan ch
    let filled (x : Option Readback) (code : ResultCode) : State :=
      ((s.taking ch).modReporter ch ({ · with readback := x })).answering ch 0x0E code m
    (∃ t, exec (.clearEvents ch m mask) s = .next t ∧
      t =
        ((s.taking ch).modReporter ch
            ({ · with flags := c.reporter.flags &&& ~~~ mask.truncate 10 })).answering ch 0x0D .ok m ∧
      ∀ f : Flag, (t.chan ch).reporter.flag f = (c.reporter.flag f && !mask.getLsbD f.bit)) ∧
      (∀ x, s.library.report a = some x →
        exec (.readback ch m 0 a b) s = .next (filled (some (.template a x)) .ok)) ∧
      (40 < a → exec (.readback ch m 0 a b) s = .next (filled none .notFound)) ∧
      (∀ e, c.schedule.entries[a]? = some e →
        exec (.readback ch m 1 a b) s = .next (filled (some (.entry a e)) .ok)) ∧
      (c.schedule.entries.length ≤ a → exec (.readback ch m 1 a b) s = .next (filled none .notFound)) ∧
      (∀ k : BankId, a = k.code → ∀ i, (c.promo.bank k).items[b]? = some i →
        exec (.readback ch m 2 a b) s = .next (filled (some (.item k b i)) .ok)) ∧
      (∀ k : BankId, a = k.code → (c.promo.bank k).items.length ≤ b →
        exec (.readback ch m 2 a b) s = .next (filled none .notFound)) ∧
      (1 < a → exec (.readback ch m 2 a b) s = .next (s.refusing ch 0x0E .badField m)) ∧
      ∀ target, 2 < target → exec (.readback ch m target a b) s = .next (s.refusing ch 0x0E .badField m)

/-- A status packet has 107 payload bytes and the content of its readback section. Every channel frame event puts one
into the frame it builds, on line 12 ahead of its other packets: the status packet of the channel on the state the event
leaves, with the result list and the readback section it then empties (R135, R175, R176, R179, R184). -/
def Obligations.StatusPacketsReport : Prop :=
  (∀ (ch : Channel) (v : Validity) (s : State), (s.chan ch).reporter.Sound →
    (statusPayload ch v s).length =
      107 +
        match (s.chan ch).reporter.readback with
        | none => 0
        | some r => r.content.length) ∧
  ∀ (ch : Channel) (inp : FrameInputs) (s : State),
    let p (t : State) : AncPacket := statusPacket ch (frameValidity s.ref.rate (s.inputs inp)) (State.reported ch s t)
    ∃ t f, exec (.channelFrameEvent ch inp) s = .next t ∧ (t.chan ch).output.built = some f ∧
      (p t).line = 12 ∧ classify (p t).words = .status ∧
      f.anc =
        insertAhead (p t)
          (if inputValid s.ref.rate inp.pgm then (s.chan ch).output.passed ++ inp.pgm.activeAnc else []) ∧
      (t.chan ch).output.passed = [] ∧ (t.chan ch).reporter.results = [] ∧
      (t.chan ch).reporter.omitted = false ∧ (t.chan ch).reporter.readback = none

/-! ### The frames -/

/-- A channel frame event of an IDLE channel with nothing due builds a passthrough frame: a valid PGM-x unaltered, its
settled pair 1 unaltered, its packets behind the status packet of the channel; the result list and the readback section
are emptied. The samples of the frame are those of its rate and length (R135, R139, R143, R144, R153, R175, R176; log
entry 10). -/
def Obligations.IdleFramesPassThrough : Prop :=
  ∀ (ch : Channel) (inp : FrameInputs) (s : State),
    let c := s.chan ch
    let g := c.composer
    let n := frameSamples s.ref.rate inp
    c.engine.state = .idle → c.schedule.entries = [] → c.parser.context = none → c.parser.arm = none →
    inputValid s.ref.rate inp.pgm = true → inp.pgm.pair1.length = n →
    (∀ x ∈ inp.pgm.pair1, sampleWf x = true) →
    g.gP.target = 65536 → g.gP.position = none → g.gR.target = 0 → g.gR.position = none →
    ∃ t p, exec (.channelFrameEvent ch inp) s = .next t ∧
      p = statusPacket ch (frameValidity s.ref.rate (s.inputs inp)) (State.reported ch s t) ∧
      t = { s with channels := t.channels, aligned := some (s.promoFrames inp.promo) } ∧
      t.chan ch =
        { c with
          composer :=
            { g with
              pgmHold := { counter := 0, picture := some inp.pgm.picture }
              promoHold := { counter := 0, picture := none }
              gP := { g.gP with present := if n = 0 then g.gP.present else 65536 }
              gR := { g.gR with present := if n = 0 then g.gR.present else 0 } }
          reporter := { c.reporter with results := [], omitted := false, readback := none }
          output :=
            { passed := []
              built :=
                some
                  { picture := inp.pgm.picture, pair1 := inp.pgm.pair1, otherPairs := inp.pgm.otherPairs
                    anc := insertAhead p (c.output.passed ++ inp.pgm.activeAnc) }
              leaving := c.output.leaving } } ∧
      ∀ x, x ≠ ch → t.chan x = s.chan x

/-- A channel frame event that takes no end cause and does not end the junction: SQUEEZE, RELEASE and TAKEOVER advance
their moves, the last event of a squeeze enters HELD and that of a takeover PROMO_FULL, the credit and the watch counter
fall, the miss sweep runs, and the list goes on. What the list does where no item ends or starts is said here: no list,
an exhausted one, an item that counts, and the count of RELEASE that stays at 0; ItemsExpire and SuccessorsStart say the
rest (R31 to R35, R37, R41 to R43, R49, R78, R79, R81, R83; log entry 20). -/
def Obligations.RunningFramesGoOn : Prop :=
  ∀ (ch : Channel) (inp : FrameInputs) (r : JunctionRecord) (s0 : State),
    let s := s0.atFrame ch inp
    let c := s.chan ch
    let e := c.engine
    let p := c.promo
    let v := promoValidity s.ref.rate (s.promoFrames inp.promo)
    let t0 := r.template.getD fallbackLayout
    let last := decide (e.m ≤ e.k + 1)
    let holds := decide (e.state = .squeeze) && last
    let moves : Engine :=
      match e.move with
      | none => { e with k := e.k + 1 }
      | some mv =>
        { e with
          k := e.k + 1, pgmRect := mv.pgm.map (moveRect (e.k + 1) mv.length mv.easing)
          promoRect := some (moveRect (e.k + 1) mv.length mv.easing mv.promo) }
    let next : Engine :=
      match e.state with
      | .squeeze =>
        if last then
          { e with
            state := .held, k := 0, m := 0, move := none, credit := e.credit.map (· - 1), watch := r.watch
            pgmRect := some t0.pgmTarget, promoRect := some (if e.degraded then fullFrame else t0.prmTarget) }
        else { moves with credit := e.credit.map (· - 1) }
      | .held => { e with credit := e.credit.map (· - 1), watch := e.watch.map (· - 1) }
      | .takeover =>
        if last then
          { e with state := .promoFull, k := 0, m := 0, move := none, pgmRect := none, promoRect := some fullFrame }
        else moves
      | .release => moves
      | .idle | .armed | .promoFull => e
    e.record = some r → RunsOn e →
    ∃ d n w t, exec (.missedBusy ch) (s.setChan ch d) = .next w ∧ exec (.channelFrameEvent ch inp) s0 = .next t ∧
      State.FrameTail ch w t ∧
      d =
        { c with
          promo := d.promo, tally := true
          engine := { next with record := some { r with itemsPlayed := n }, marker := d.engine.marker }
          reporter := { c.reporter with flags := d.reporter.flags } } ∧
      let quiet (p' : PromoList) : Prop :=
        d.promo = p' ∧ n = r.itemsPlayed ∧ d.engine.marker = e.marker ∧ d.reporter.flags = c.reporter.flags
      (p.play.bank = none →
        d.promo = p ∧ n = r.itemsPlayed ∧ d.reporter.flags = c.reporter.flags ∧
          d.engine.marker = if holds then markedListEnd e.marker else e.marker) ∧
        ∀ b cur it, p.play.bank = some b → p.play.cursor = some cur → (p.bank b).items[cur.index]? = some it →
          let cur' := countedCursor cur (it.source.valid v)
          let atZero (x : Cursor) : Prop := x.duration = 0 ∨ x.gate = some 0
          (cur.phase = .exhausted → quiet p) ∧
            (e.state ≠ .release → cur.phase = .running → ¬ atZero cur' → quiet (p.at b cur' p.play.started)) ∧
            (e.state = .release → cur.phase = .running → ¬ atZero cur → quiet (p.at b cur' p.play.started)) ∧
            (e.state = .release → cur.phase = .finished ∨ atZero cur → quiet p)

/-- The picture of the frame a channel frame event builds: PGM-x itself in a passthrough frame of a valid PGM-x; at
every point of any frame the first of top window, border ring, bottom window and backing colour that applies, each
window drawn from its source, from its hold picture by repetition, or from the backing colour (R135 to R141). A window
at the full frame is a copy (R65). -/
def Obligations.FramesArePainted : Prop :=
  ∀ (ch : Channel) (inp : FrameInputs) (s : State), s.RecordPresent ch →
    ∃ t f, exec (.channelFrameEvent ch inp) s = .next t ∧ (t.chan ch).output.built = some f ∧
      let view := State.handed ch inp s t
      let read := s.inputs inp
      let look := view.look
      let pgmValid := inputValid s.ref.rate read.pgm
      let source := namedInput read.promo view.item
      windowPicture fullFrame read.pgm.picture = read.pgm.picture ∧
        (view.state = .idle → pgmValid = true → f.picture = read.pgm.picture) ∧
        ((∀ r, view.pgm = some r → Rect.Drawable r) → (∀ q, view.promo = some q → Rect.Drawable q) →
          ∀ (x : Component) (i j : Nat), i * x.scale < 1920 → j < 1080 →
            let column := i * x.scale
            let shown := planeAt (x.plane f.picture) i j
            let promoOnTop := look.layering = some .promoOnTop
            let pgm (r : Rect) : Nat :=
              heldSample x pgmValid read.pgm.picture r look.backing (s.chan ch).composer.pgmHold
                ((column - r.x) / x.scale) (j - r.y)
            let promo (q : Rect) : Nat :=
              match source with
              | none => x.of look.backing
              | some g =>
                heldSample x (inputValid s.ref.rate g) g.picture q look.backing (s.chan ch).composer.promoHold
                  ((column - q.x) / x.scale) (j - q.y)
            (∀ r, view.pgm = some r → Rect.Inside r column j →
              (¬ promoOnTop ∨ ∀ q, view.promo = some q → ¬ Rect.Inside q column j) → shown = pgm r) ∧
              (∀ q, view.promo = some q → Rect.Inside q column j →
                (promoOnTop ∨
                  ∀ r, view.pgm = some r →
                    ¬ Rect.Inside r column j ∧ ¬ Rect.InRing r look.borderWidth column j) → shown = promo q) ∧
              (∀ r, view.pgm = some r → Rect.InRing r look.borderWidth column j →
                (promoOnTop → ∀ q, view.promo = some q → ¬ Rect.Inside q column j) →
                shown = x.of look.borderColour) ∧
              ((∀ r, view.pgm = some r →
                  ¬ Rect.Inside r column j ∧ ¬ Rect.InRing r look.borderWidth column j) →
                (∀ q, view.promo = some q → ¬ Rect.Inside q column j) → shown = x.of look.backing))

/-- The gains and pair 1 of the frame a channel frame event builds: a target that differs from the one in force starts a
ramp from the gain of the last sample mixed, or from the settled value; each sample is the floored weighted sum of PGM-x
and the promo source, limited to 24 bits, a lost or absent source being silent (R142 to R145; log entry 10). That a ramp
whose last sample of the frame is s 1023 is over, its present value that sample's, is the model's reading (log entry
29). -/
def Obligations.GainsRampAndPairOneIsMixed : Prop :=
  ∀ (ch : Channel) (inp : FrameInputs) (s : State), s.RecordPresent ch →
    ∃ t f, exec (.channelFrameEvent ch inp) s = .next t ∧ (t.chan ch).output.built = some f ∧
      let view := State.handed ch inp s t
      let read := s.inputs inp
      let n := frameSamples s.ref.rate inp
      let valid (g : InputFrame) : Bool := inputValid s.ref.rate g
      let programme := if valid read.pgm then read.pgm.pair1 else []
      let promo :=
        match view.promo, namedInput read.promo view.item with
        | some _, some g => if valid g then g.pair1 else []
        | _, _ => []
      ∀ aP aR, AimsAt view aP aR → (view.state ≠ .idle → view.state ≠ .release → view.look.codes.isSome) →
        let gP := (s.chan ch).composer.gP.aimed aP
        let gR := (s.chan ch).composer.gR.aimed aR
        (t.chan ch).composer.gP = gP.mixed n ∧ (t.chan ch).composer.gR = gR.mixed n ∧ f.pair1.length = n ∧
          f.otherPairs = (if valid read.pgm then read.pgm.otherPairs else []) ∧
          ∀ i, i < n →
            let ps := programme.getD i (0, 0)
            let rs := promo.getD i (0, 0)
            f.pair1[i]? =
              some
                (mixed ps.1 rs.1 (gP.sample i) (gR.sample i), mixed ps.2 rs.2 (gP.sample i) (gR.sample i))

/-- The event that brings a window's hold counter to 6, its source still lost, keeps the hold picture; the event in
whose frame a gain's ramp passes its 1024 samples leaves the gain at its target. The schedule, the engine, the promo
list and the parser stand. A channel frame event sets each window's hold: at 0 with the window's picture of a valid
source, one higher and at most 6 with the picture kept for a lost one, at 0 with none for an absent window; the first
lost frame sets SOURCE_HOLD (R139, R140, R143). The two rows run the composer's work alone, on what its neighbours hand
it as they stand (log entry 2), with the promo inputs judged once a reference frame (log entry 5). -/
def Obligations.HoldsAndRampsEnd : Prop :=
  ∀ (ch : Channel) (inp : FrameInputs) (s : State),
    let c := s.chan ch
    let read := s.inputs inp
    let kept (t : State) : Prop :=
      (t.chan ch).schedule = c.schedule ∧ (t.chan ch).engine = c.engine ∧ (t.chan ch).promo = c.promo ∧
        (t.chan ch).parser = c.parser ∧ (t.chan ch).tally = c.tally ∧ (t.chan ch).fetch = c.fetch ∧
        t = { s with channels := t.channels, aligned := some (s.promoFrames inp.promo) } ∧
        ∀ x, x ≠ ch → t.chan x = s.chan x
    (∀ w : Window, c.view.lost s.ref.rate read w = true → (c.composer.hold w).counter = 5 →
      ∃ t, exec (.sourceHoldExpiry ch w inp) s = .next t ∧ kept t ∧
        (t.chan ch).composer.hold w = { counter := 6, picture := (c.composer.hold w).picture }) ∧
      (∀ (x : GainName) (n : Nat), (c.composer.gain x).position = some n →
        1024 < n + frameSamples s.ref.rate inp → n ≤ 1024 →
        (c.composer.gain x).target =
          (match x with
            | .gP => (gainTargets c.view).1
            | .gR => (gainTargets c.view).2) →
        ∃ t, exec (.gainRampEnd ch x inp) s = .next t ∧ kept t ∧
          (t.chan ch).composer.gain x =
            { c.composer.gain x with present := (c.composer.gain x).target, position := none }) ∧
      (s.RecordPresent ch →
        ∃ t, exec (.channelFrameEvent ch inp) s = .next t ∧
          let view := State.handed ch inp s t
          let after (valid : Bool) (r : Rect) (src : Picture) (h : Hold) : Hold :=
            if valid then { counter := 0, picture := some (windowPicture r src) }
            else { counter := if h.counter < 6 then h.counter + 1 else 6, picture := h.picture }
          let pgmLost := view.pgm.isSome = true ∧ inputValid s.ref.rate read.pgm = false
          let promoLost :=
            view.promo.isSome = true ∧ ∃ g, namedInput read.promo view.item = some g ∧ inputValid s.ref.rate g = false
          (t.chan ch).composer.pgmHold =
              (match view.pgm with
                | none => { counter := 0, picture := none }
                | some r =>
                  after (inputValid s.ref.rate read.pgm) r read.pgm.picture c.composer.pgmHold) ∧
            (t.chan ch).composer.promoHold =
              (match view.promo, namedInput read.promo view.item with
                | none, _ => { counter := 0, picture := none }
                | some q, none => { counter := 0, picture := some (fieldOf view.look.backing q.w q.h) }
                | some q, some g => after (inputValid s.ref.rate g) q g.picture c.composer.promoHold) ∧
            ((t.chan ch).reporter.flag .sourceHold = true ↔
              c.reporter.flag .sourceHold = true ∨ (pgmLost ∧ c.composer.pgmHold.counter = 0) ∨
                (promoLost ∧ c.composer.promoHold.counter = 0)))

/-- The eased value of every move lies between 0 and 65536, is 0 at k = 0 and 65536 at k = M, and never decreases as k
increases (R52). -/
def Obligations.EasedValuesRise : Prop :=
  ∀ (c : Easing) (m : Nat), 1 ≤ m → m ≤ 250 →
    eased c (progress 0 m) = 0 ∧ eased c (progress m m) = 65536 ∧
      ∀ k l, k ≤ l → l ≤ m →
        eased c (progress k m) ≤ eased c (progress l m) ∧ eased c (progress l m) ≤ 65536
end

