-- ==== Sys2Proof/Laws/State.lean ====
section
/-!
SUPPORT. The lemmas of State: what each update of a channel leaves in that channel, in the others and in the
part-wide fields, so that no later proof unfolds a record update.
-/

namespace Sys2Proof.Machine

/-! ### One value for each channel -/

@[simp] theorem PerChannel.get_set_same {α : Type} (p : PerChannel α) (ch : Channel) (v : α) :
    (p.set ch v).get ch = v := by cases ch <;> rfl

theorem PerChannel.get_set_ne {α : Type} (p : PerChannel α) {ch ch' : Channel} (h : ch' ≠ ch) (v : α) :
    (p.set ch v).get ch' = p.get ch' := by cases ch <;> cases ch' <;> first | rfl | exact absurd rfl h

theorem PerChannel.get_set {α : Type} (p : PerChannel α) (ch ch' : Channel) (v : α) :
    (p.set ch v).get ch' = if ch' = ch then v else p.get ch' := by cases ch <;> cases ch' <;> rfl

@[simp] theorem PerChannel.get_map {α β : Type} (f : α → β) (p : PerChannel α) (ch : Channel) :
    (p.map f).get ch = f (p.get ch) := by cases ch <;> rfl

theorem PerChannel.ext_get {α : Type} {p q : PerChannel α} (h : ∀ ch, p.get ch = q.get ch) : p = q := by
  cases p; cases q
  exact PerChannel.mk.injEq .. ▸ ⟨h .a, h .b, h .c, h .d⟩

@[simp] theorem PerChannel.set_get {α : Type} (p : PerChannel α) (ch : Channel) : p.set ch (p.get ch) = p := by
  cases ch <;> rfl

/-- A property of four values is the property of the value of every channel. -/
theorem channel_forall {p : Channel → Prop} : (∀ ch, p ch) ↔ p .a ∧ p .b ∧ p .c ∧ p .d :=
  ⟨fun h => ⟨h _, h _, h _, h _⟩, fun h ch => by cases ch <;> simp [h]⟩

/-! ### The channels of the state -/

@[simp] theorem State.chan_setChan_same (s : State) (ch : Channel) (c : ChannelState) :
    (s.setChan ch c).chan ch = c := by simp [State.setChan, State.chan]

theorem State.chan_setChan_ne (s : State) {ch ch' : Channel} (h : ch' ≠ ch) (c : ChannelState) :
    (s.setChan ch c).chan ch' = s.chan ch' := by simp [State.setChan, State.chan, PerChannel.get_set_ne _ h]

theorem State.chan_setChan (s : State) (ch ch' : Channel) (c : ChannelState) :
    (s.setChan ch c).chan ch' = if ch' = ch then c else s.chan ch' := by
  simp [State.setChan, State.chan, PerChannel.get_set]

@[simp] theorem State.chan_modChan_same (s : State) (ch : Channel) (f : ChannelState → ChannelState) :
    (s.modChan ch f).chan ch = f (s.chan ch) := by simp [State.modChan]

theorem State.chan_modChan_ne (s : State) {ch ch' : Channel} (h : ch' ≠ ch) (f : ChannelState → ChannelState) :
    (s.modChan ch f).chan ch' = s.chan ch' := by simp [State.modChan, State.chan_setChan_ne _ h]

theorem State.chan_modChan (s : State) (ch ch' : Channel) (f : ChannelState → ChannelState) :
    (s.modChan ch f).chan ch' = if ch' = ch then f (s.chan ch) else s.chan ch' := by
  simp [State.modChan, State.chan_setChan]

@[simp] theorem State.chan_mapChans (s : State) (f : Channel → ChannelState → ChannelState) (ch : Channel) :
    (s.mapChans f).chan ch = f ch (s.chan ch) := by cases ch <;> rfl

@[simp] theorem State.modChan_modChan (s : State) (ch : Channel) (f g : ChannelState → ChannelState) :
    (s.modChan ch f).modChan ch g = s.modChan ch (fun c => g (f c)) := by
  cases ch <;> rfl

/-! ### What `setChan` leaves in the part-wide fields -/

@[simp] theorem State.setChan_ref (s : State) (ch : Channel) (c : ChannelState) :
    (s.setChan ch c).ref = s.ref := rfl
@[simp] theorem State.setChan_pool (s : State) (ch : Channel) (c : ChannelState) :
    (s.setChan ch c).pool = s.pool := rfl
@[simp] theorem State.setChan_library (s : State) (ch : Channel) (c : ChannelState) :
    (s.setChan ch c).library = s.library := rfl
@[simp] theorem State.setChan_protection (s : State) (ch : Channel) (c : ChannelState) :
    (s.setChan ch c).protection = s.protection := rfl
@[simp] theorem State.setChan_management (s : State) (ch : Channel) (c : ChannelState) :
    (s.setChan ch c).management = s.management := rfl
@[simp] theorem State.setChan_freeCount (s : State) (ch : Channel) (c : ChannelState) :
    (s.setChan ch c).freeCount = s.freeCount := rfl
@[simp] theorem State.setChan_aligned (s : State) (ch : Channel) (c : ChannelState) :
    (s.setChan ch c).aligned = s.aligned := rfl
@[simp] theorem State.setChan_pending (s : State) (ch : Channel) (c : ChannelState) :
    (s.setChan ch c).pending = s.pending := rfl

/-! ### What `modChan` leaves in the part-wide fields -/

@[simp] theorem State.modChan_ref (s : State) (ch : Channel) (f : ChannelState → ChannelState) :
    (s.modChan ch f).ref = s.ref := rfl
@[simp] theorem State.modChan_pool (s : State) (ch : Channel) (f : ChannelState → ChannelState) :
    (s.modChan ch f).pool = s.pool := rfl
@[simp] theorem State.modChan_library (s : State) (ch : Channel) (f : ChannelState → ChannelState) :
    (s.modChan ch f).library = s.library := rfl
@[simp] theorem State.modChan_protection (s : State) (ch : Channel) (f : ChannelState → ChannelState) :
    (s.modChan ch f).protection = s.protection := rfl
@[simp] theorem State.modChan_management (s : State) (ch : Channel) (f : ChannelState → ChannelState) :
    (s.modChan ch f).management = s.management := rfl
@[simp] theorem State.modChan_freeCount (s : State) (ch : Channel) (f : ChannelState → ChannelState) :
    (s.modChan ch f).freeCount = s.freeCount := rfl
@[simp] theorem State.modChan_aligned (s : State) (ch : Channel) (f : ChannelState → ChannelState) :
    (s.modChan ch f).aligned = s.aligned := rfl
@[simp] theorem State.modChan_pending (s : State) (ch : Channel) (f : ChannelState → ChannelState) :
    (s.modChan ch f).pending = s.pending := rfl

/-! ### What `mapChans` leaves in the part-wide fields -/

@[simp] theorem State.mapChans_ref (s : State) (f : Channel → ChannelState → ChannelState) :
    (s.mapChans f).ref = s.ref := rfl
@[simp] theorem State.mapChans_pool (s : State) (f : Channel → ChannelState → ChannelState) :
    (s.mapChans f).pool = s.pool := rfl
@[simp] theorem State.mapChans_library (s : State) (f : Channel → ChannelState → ChannelState) :
    (s.mapChans f).library = s.library := rfl
@[simp] theorem State.mapChans_protection (s : State) (f : Channel → ChannelState → ChannelState) :
    (s.mapChans f).protection = s.protection := rfl
@[simp] theorem State.mapChans_management (s : State) (f : Channel → ChannelState → ChannelState) :
    (s.mapChans f).management = s.management := rfl
@[simp] theorem State.mapChans_freeCount (s : State) (f : Channel → ChannelState → ChannelState) :
    (s.mapChans f).freeCount = s.freeCount := rfl
@[simp] theorem State.mapChans_aligned (s : State) (f : Channel → ChannelState → ChannelState) :
    (s.mapChans f).aligned = s.aligned := rfl
@[simp] theorem State.mapChans_pending (s : State) (f : Channel → ChannelState → ChannelState) :
    (s.mapChans f).pending = s.pending := rfl

/-! ### What `modReporter` leaves in the part-wide fields -/

@[simp] theorem State.modReporter_ref (s : State) (ch : Channel) (f : Reporter → Reporter) :
    (s.modReporter ch f).ref = s.ref := rfl
@[simp] theorem State.modReporter_pool (s : State) (ch : Channel) (f : Reporter → Reporter) :
    (s.modReporter ch f).pool = s.pool := rfl
@[simp] theorem State.modReporter_library (s : State) (ch : Channel) (f : Reporter → Reporter) :
    (s.modReporter ch f).library = s.library := rfl
@[simp] theorem State.modReporter_protection (s : State) (ch : Channel) (f : Reporter → Reporter) :
    (s.modReporter ch f).protection = s.protection := rfl
@[simp] theorem State.modReporter_management (s : State) (ch : Channel) (f : Reporter → Reporter) :
    (s.modReporter ch f).management = s.management := rfl
@[simp] theorem State.modReporter_freeCount (s : State) (ch : Channel) (f : Reporter → Reporter) :
    (s.modReporter ch f).freeCount = s.freeCount := rfl
@[simp] theorem State.modReporter_aligned (s : State) (ch : Channel) (f : Reporter → Reporter) :
    (s.modReporter ch f).aligned = s.aligned := rfl
@[simp] theorem State.modReporter_pending (s : State) (ch : Channel) (f : Reporter → Reporter) :
    (s.modReporter ch f).pending = s.pending := rfl

/-! ### What `raise` leaves in the part-wide fields -/

@[simp] theorem State.raise_ref (s : State) (ch : Channel) (f : Flag) :
    (s.raise ch f).ref = s.ref := rfl
@[simp] theorem State.raise_pool (s : State) (ch : Channel) (f : Flag) :
    (s.raise ch f).pool = s.pool := rfl
@[simp] theorem State.raise_library (s : State) (ch : Channel) (f : Flag) :
    (s.raise ch f).library = s.library := rfl
@[simp] theorem State.raise_protection (s : State) (ch : Channel) (f : Flag) :
    (s.raise ch f).protection = s.protection := rfl
@[simp] theorem State.raise_management (s : State) (ch : Channel) (f : Flag) :
    (s.raise ch f).management = s.management := rfl
@[simp] theorem State.raise_freeCount (s : State) (ch : Channel) (f : Flag) :
    (s.raise ch f).freeCount = s.freeCount := rfl
@[simp] theorem State.raise_aligned (s : State) (ch : Channel) (f : Flag) :
    (s.raise ch f).aligned = s.aligned := rfl
@[simp] theorem State.raise_pending (s : State) (ch : Channel) (f : Flag) :
    (s.raise ch f).pending = s.pending := rfl

/-! ### What `modParser` leaves in the part-wide fields -/

@[simp] theorem State.modParser_ref (s : State) (ch : Channel) (f : Parser → Parser) :
    (s.modParser ch f).ref = s.ref := rfl
@[simp] theorem State.modParser_pool (s : State) (ch : Channel) (f : Parser → Parser) :
    (s.modParser ch f).pool = s.pool := rfl
@[simp] theorem State.modParser_library (s : State) (ch : Channel) (f : Parser → Parser) :
    (s.modParser ch f).library = s.library := rfl
@[simp] theorem State.modParser_protection (s : State) (ch : Channel) (f : Parser → Parser) :
    (s.modParser ch f).protection = s.protection := rfl
@[simp] theorem State.modParser_management (s : State) (ch : Channel) (f : Parser → Parser) :
    (s.modParser ch f).management = s.management := rfl
@[simp] theorem State.modParser_freeCount (s : State) (ch : Channel) (f : Parser → Parser) :
    (s.modParser ch f).freeCount = s.freeCount := rfl
@[simp] theorem State.modParser_aligned (s : State) (ch : Channel) (f : Parser → Parser) :
    (s.modParser ch f).aligned = s.aligned := rfl
@[simp] theorem State.modParser_pending (s : State) (ch : Channel) (f : Parser → Parser) :
    (s.modParser ch f).pending = s.pending := rfl

/-! ### What `modRecord` leaves in the part-wide fields -/

@[simp] theorem State.modRecord_ref (s : State) (ch : Channel) (f : JunctionRecord → JunctionRecord) :
    (s.modRecord ch f).ref = s.ref := rfl
@[simp] theorem State.modRecord_pool (s : State) (ch : Channel) (f : JunctionRecord → JunctionRecord) :
    (s.modRecord ch f).pool = s.pool := rfl
@[simp] theorem State.modRecord_library (s : State) (ch : Channel) (f : JunctionRecord → JunctionRecord) :
    (s.modRecord ch f).library = s.library := rfl
@[simp] theorem State.modRecord_protection (s : State) (ch : Channel) (f : JunctionRecord → JunctionRecord) :
    (s.modRecord ch f).protection = s.protection := rfl
@[simp] theorem State.modRecord_management (s : State) (ch : Channel) (f : JunctionRecord → JunctionRecord) :
    (s.modRecord ch f).management = s.management := rfl
@[simp] theorem State.modRecord_freeCount (s : State) (ch : Channel) (f : JunctionRecord → JunctionRecord) :
    (s.modRecord ch f).freeCount = s.freeCount := rfl
@[simp] theorem State.modRecord_aligned (s : State) (ch : Channel) (f : JunctionRecord → JunctionRecord) :
    (s.modRecord ch f).aligned = s.aligned := rfl
@[simp] theorem State.modRecord_pending (s : State) (ch : Channel) (f : JunctionRecord → JunctionRecord) :
    (s.modRecord ch f).pending = s.pending := rfl

/-! ### What `setFetch` leaves in the part-wide fields -/

@[simp] theorem State.setFetch_ref (s : State) (ch : Channel) (f : FetchState) :
    (s.setFetch ch f).ref = s.ref := rfl
@[simp] theorem State.setFetch_pool (s : State) (ch : Channel) (f : FetchState) :
    (s.setFetch ch f).pool = s.pool := rfl
@[simp] theorem State.setFetch_library (s : State) (ch : Channel) (f : FetchState) :
    (s.setFetch ch f).library = s.library := rfl
@[simp] theorem State.setFetch_protection (s : State) (ch : Channel) (f : FetchState) :
    (s.setFetch ch f).protection = s.protection := rfl
@[simp] theorem State.setFetch_management (s : State) (ch : Channel) (f : FetchState) :
    (s.setFetch ch f).management = s.management := rfl
@[simp] theorem State.setFetch_freeCount (s : State) (ch : Channel) (f : FetchState) :
    (s.setFetch ch f).freeCount = s.freeCount := rfl
@[simp] theorem State.setFetch_aligned (s : State) (ch : Channel) (f : FetchState) :
    (s.setFetch ch f).aligned = s.aligned := rfl
@[simp] theorem State.setFetch_pending (s : State) (ch : Channel) (f : FetchState) :
    (s.setFetch ch f).pending = s.pending := rfl

/-! ### What one block's change leaves in the blocks of its channel -/

@[simp] theorem State.modReporter_chan_schedule (s : State) (ch : Channel) (f : Reporter → Reporter) :
    ((s.modReporter ch f).chan ch).schedule = (s.chan ch).schedule := by simp [State.modReporter]
@[simp] theorem State.modReporter_chan_engine (s : State) (ch : Channel) (f : Reporter → Reporter) :
    ((s.modReporter ch f).chan ch).engine = (s.chan ch).engine := by simp [State.modReporter]
@[simp] theorem State.modReporter_chan_promo (s : State) (ch : Channel) (f : Reporter → Reporter) :
    ((s.modReporter ch f).chan ch).promo = (s.chan ch).promo := by simp [State.modReporter]
@[simp] theorem State.modReporter_chan_composer (s : State) (ch : Channel) (f : Reporter → Reporter) :
    ((s.modReporter ch f).chan ch).composer = (s.chan ch).composer := by simp [State.modReporter]
@[simp] theorem State.modReporter_chan_parser (s : State) (ch : Channel) (f : Reporter → Reporter) :
    ((s.modReporter ch f).chan ch).parser = (s.chan ch).parser := by simp [State.modReporter]
@[simp] theorem State.modReporter_chan_reporter (s : State) (ch : Channel) (f : Reporter → Reporter) :
    ((s.modReporter ch f).chan ch).reporter = f (s.chan ch).reporter := by simp [State.modReporter]
@[simp] theorem State.modReporter_chan_fetch (s : State) (ch : Channel) (f : Reporter → Reporter) :
    ((s.modReporter ch f).chan ch).fetch = (s.chan ch).fetch := by simp [State.modReporter]
@[simp] theorem State.modReporter_chan_tally (s : State) (ch : Channel) (f : Reporter → Reporter) :
    ((s.modReporter ch f).chan ch).tally = (s.chan ch).tally := by simp [State.modReporter]
@[simp] theorem State.modReporter_chan_output (s : State) (ch : Channel) (f : Reporter → Reporter) :
    ((s.modReporter ch f).chan ch).output = (s.chan ch).output := by simp [State.modReporter]
theorem State.modReporter_chan_ne (s : State) {ch ch' : Channel} (h : ch' ≠ ch) (f : Reporter → Reporter) :
    (s.modReporter ch f).chan ch' = s.chan ch' := by simp [State.modReporter, State.chan_modChan_ne _ h]

@[simp] theorem State.modParser_chan_schedule (s : State) (ch : Channel) (f : Parser → Parser) :
    ((s.modParser ch f).chan ch).schedule = (s.chan ch).schedule := by simp [State.modParser]
@[simp] theorem State.modParser_chan_engine (s : State) (ch : Channel) (f : Parser → Parser) :
    ((s.modParser ch f).chan ch).engine = (s.chan ch).engine := by simp [State.modParser]
@[simp] theorem State.modParser_chan_promo (s : State) (ch : Channel) (f : Parser → Parser) :
    ((s.modParser ch f).chan ch).promo = (s.chan ch).promo := by simp [State.modParser]
@[simp] theorem State.modParser_chan_composer (s : State) (ch : Channel) (f : Parser → Parser) :
    ((s.modParser ch f).chan ch).composer = (s.chan ch).composer := by simp [State.modParser]
@[simp] theorem State.modParser_chan_parser (s : State) (ch : Channel) (f : Parser → Parser) :
    ((s.modParser ch f).chan ch).parser = f (s.chan ch).parser := by simp [State.modParser]
@[simp] theorem State.modParser_chan_reporter (s : State) (ch : Channel) (f : Parser → Parser) :
    ((s.modParser ch f).chan ch).reporter = (s.chan ch).reporter := by simp [State.modParser]
@[simp] theorem State.modParser_chan_fetch (s : State) (ch : Channel) (f : Parser → Parser) :
    ((s.modParser ch f).chan ch).fetch = (s.chan ch).fetch := by simp [State.modParser]
@[simp] theorem State.modParser_chan_tally (s : State) (ch : Channel) (f : Parser → Parser) :
    ((s.modParser ch f).chan ch).tally = (s.chan ch).tally := by simp [State.modParser]
@[simp] theorem State.modParser_chan_output (s : State) (ch : Channel) (f : Parser → Parser) :
    ((s.modParser ch f).chan ch).output = (s.chan ch).output := by simp [State.modParser]
theorem State.modParser_chan_ne (s : State) {ch ch' : Channel} (h : ch' ≠ ch) (f : Parser → Parser) :
    (s.modParser ch f).chan ch' = s.chan ch' := by simp [State.modParser, State.chan_modChan_ne _ h]

@[simp] theorem State.modRecord_chan_schedule (s : State) (ch : Channel) (f : JunctionRecord → JunctionRecord) :
    ((s.modRecord ch f).chan ch).schedule = (s.chan ch).schedule := by simp [State.modRecord]
@[simp] theorem State.modRecord_chan_engine (s : State) (ch : Channel) (f : JunctionRecord → JunctionRecord) :
    ((s.modRecord ch f).chan ch).engine = (s.chan ch).engine.modRecord f := by simp [State.modRecord]
@[simp] theorem State.modRecord_chan_promo (s : State) (ch : Channel) (f : JunctionRecord → JunctionRecord) :
    ((s.modRecord ch f).chan ch).promo = (s.chan ch).promo := by simp [State.modRecord]
@[simp] theorem State.modRecord_chan_composer (s : State) (ch : Channel) (f : JunctionRecord → JunctionRecord) :
    ((s.modRecord ch f).chan ch).composer = (s.chan ch).composer := by simp [State.modRecord]
@[simp] theorem State.modRecord_chan_parser (s : State) (ch : Channel) (f : JunctionRecord → JunctionRecord) :
    ((s.modRecord ch f).chan ch).parser = (s.chan ch).parser := by simp [State.modRecord]
@[simp] theorem State.modRecord_chan_reporter (s : State) (ch : Channel) (f : JunctionRecord → JunctionRecord) :
    ((s.modRecord ch f).chan ch).reporter = (s.chan ch).reporter := by simp [State.modRecord]
@[simp] theorem State.modRecord_chan_fetch (s : State) (ch : Channel) (f : JunctionRecord → JunctionRecord) :
    ((s.modRecord ch f).chan ch).fetch = (s.chan ch).fetch := by simp [State.modRecord]
@[simp] theorem State.modRecord_chan_tally (s : State) (ch : Channel) (f : JunctionRecord → JunctionRecord) :
    ((s.modRecord ch f).chan ch).tally = (s.chan ch).tally := by simp [State.modRecord]
@[simp] theorem State.modRecord_chan_output (s : State) (ch : Channel) (f : JunctionRecord → JunctionRecord) :
    ((s.modRecord ch f).chan ch).output = (s.chan ch).output := by simp [State.modRecord]
theorem State.modRecord_chan_ne (s : State) {ch ch' : Channel} (h : ch' ≠ ch) (f : JunctionRecord → JunctionRecord) :
    (s.modRecord ch f).chan ch' = s.chan ch' := by simp [State.modRecord, State.chan_modChan_ne _ h]

@[simp] theorem State.setFetch_chan_schedule (s : State) (ch : Channel) (f : FetchState) :
    ((s.setFetch ch f).chan ch).schedule = (s.chan ch).schedule := by simp [State.setFetch]
@[simp] theorem State.setFetch_chan_engine (s : State) (ch : Channel) (f : FetchState) :
    ((s.setFetch ch f).chan ch).engine = (s.chan ch).engine := by simp [State.setFetch]
@[simp] theorem State.setFetch_chan_promo (s : State) (ch : Channel) (f : FetchState) :
    ((s.setFetch ch f).chan ch).promo = (s.chan ch).promo := by simp [State.setFetch]
@[simp] theorem State.setFetch_chan_composer (s : State) (ch : Channel) (f : FetchState) :
    ((s.setFetch ch f).chan ch).composer = (s.chan ch).composer := by simp [State.setFetch]
@[simp] theorem State.setFetch_chan_parser (s : State) (ch : Channel) (f : FetchState) :
    ((s.setFetch ch f).chan ch).parser = (s.chan ch).parser := by simp [State.setFetch]
@[simp] theorem State.setFetch_chan_reporter (s : State) (ch : Channel) (f : FetchState) :
    ((s.setFetch ch f).chan ch).reporter = (s.chan ch).reporter := by simp [State.setFetch]
@[simp] theorem State.setFetch_chan_fetch (s : State) (ch : Channel) (f : FetchState) :
    ((s.setFetch ch f).chan ch).fetch = f := by simp [State.setFetch]
@[simp] theorem State.setFetch_chan_tally (s : State) (ch : Channel) (f : FetchState) :
    ((s.setFetch ch f).chan ch).tally = (s.chan ch).tally := by simp [State.setFetch]
@[simp] theorem State.setFetch_chan_output (s : State) (ch : Channel) (f : FetchState) :
    ((s.setFetch ch f).chan ch).output = (s.chan ch).output := by simp [State.setFetch]
theorem State.setFetch_chan_ne (s : State) {ch ch' : Channel} (h : ch' ≠ ch) (f : FetchState) :
    (s.setFetch ch f).chan ch' = s.chan ch' := by simp [State.setFetch, State.chan_modChan_ne _ h]

theorem State.raise_chan_ne (s : State) {ch ch' : Channel} (h : ch' ≠ ch) (f : Flag) :
    (s.raise ch f).chan ch' = s.chan ch' := State.modReporter_chan_ne s h _

/-! ### Engine, channel and pool updates -/

@[simp] theorem Engine.modRecord_state (e : Engine) (f : JunctionRecord → JunctionRecord) :
    (e.modRecord f).state = e.state := rfl
@[simp] theorem Engine.modRecord_k (e : Engine) (f : JunctionRecord → JunctionRecord) :
    (e.modRecord f).k = e.k := rfl
@[simp] theorem Engine.modRecord_m (e : Engine) (f : JunctionRecord → JunctionRecord) :
    (e.modRecord f).m = e.m := rfl
@[simp] theorem Engine.modRecord_move (e : Engine) (f : JunctionRecord → JunctionRecord) :
    (e.modRecord f).move = e.move := rfl
@[simp] theorem Engine.modRecord_credit (e : Engine) (f : JunctionRecord → JunctionRecord) :
    (e.modRecord f).credit = e.credit := rfl
@[simp] theorem Engine.modRecord_watch (e : Engine) (f : JunctionRecord → JunctionRecord) :
    (e.modRecord f).watch = e.watch := rfl
@[simp] theorem Engine.modRecord_pgmRect (e : Engine) (f : JunctionRecord → JunctionRecord) :
    (e.modRecord f).pgmRect = e.pgmRect := rfl
@[simp] theorem Engine.modRecord_promoRect (e : Engine) (f : JunctionRecord → JunctionRecord) :
    (e.modRecord f).promoRect = e.promoRect := rfl
@[simp] theorem Engine.modRecord_marker (e : Engine) (f : JunctionRecord → JunctionRecord) :
    (e.modRecord f).marker = e.marker := rfl
@[simp] theorem Engine.modRecord_degraded (e : Engine) (f : JunctionRecord → JunctionRecord) :
    (e.modRecord f).degraded = e.degraded := rfl
@[simp] theorem Engine.modRecord_pgmScaled (e : Engine) (f : JunctionRecord → JunctionRecord) :
    (e.modRecord f).pgmScaled = e.pgmScaled := rfl
@[simp] theorem Engine.modRecord_promoScaled (e : Engine) (f : JunctionRecord → JunctionRecord) :
    (e.modRecord f).promoScaled = e.promoScaled := rfl
@[simp] theorem Engine.modRecord_record (e : Engine) (f : JunctionRecord → JunctionRecord) :
    (e.modRecord f).record = e.record.map f := rfl

@[simp] theorem ChannelState.withEngine_schedule (c : ChannelState) (e : Engine) :
    (c.withEngine e).schedule = c.schedule := rfl
@[simp] theorem ChannelState.withEngine_engine (c : ChannelState) (e : Engine) :
    (c.withEngine e).engine = e := rfl
@[simp] theorem ChannelState.withEngine_promo (c : ChannelState) (e : Engine) :
    (c.withEngine e).promo = c.promo := rfl
@[simp] theorem ChannelState.withEngine_composer (c : ChannelState) (e : Engine) :
    (c.withEngine e).composer = c.composer := rfl
@[simp] theorem ChannelState.withEngine_parser (c : ChannelState) (e : Engine) :
    (c.withEngine e).parser = c.parser := rfl
@[simp] theorem ChannelState.withEngine_reporter (c : ChannelState) (e : Engine) :
    (c.withEngine e).reporter = c.reporter := rfl
@[simp] theorem ChannelState.withEngine_fetch (c : ChannelState) (e : Engine) :
    (c.withEngine e).fetch = c.fetch := rfl
@[simp] theorem ChannelState.withEngine_tally (c : ChannelState) (e : Engine) :
    (c.withEngine e).tally = e.state.tally := rfl
@[simp] theorem ChannelState.withEngine_output (c : ChannelState) (e : Engine) :
    (c.withEngine e).output = c.output := rfl

/-! ### The promo inputs -/

@[simp] theorem State.judge_ref (s : State) (p : PromoFrames) : (s.judge p).ref = s.ref := rfl
@[simp] theorem State.judge_pool (s : State) (p : PromoFrames) : (s.judge p).pool = s.pool := rfl
@[simp] theorem State.judge_library (s : State) (p : PromoFrames) : (s.judge p).library = s.library := rfl
@[simp] theorem State.judge_protection (s : State) (p : PromoFrames) : (s.judge p).protection = s.protection := rfl
@[simp] theorem State.judge_management (s : State) (p : PromoFrames) : (s.judge p).management = s.management := rfl
@[simp] theorem State.judge_channels (s : State) (p : PromoFrames) : (s.judge p).channels = s.channels := rfl
@[simp] theorem State.judge_chan (s : State) (p : PromoFrames) (ch : Channel) : (s.judge p).chan ch = s.chan ch := rfl
@[simp] theorem State.judge_aligned (s : State) (p : PromoFrames) :
    (s.judge p).aligned = some (s.promoFrames p) := rfl
@[simp] theorem State.judge_freeCount (s : State) (p : PromoFrames) : (s.judge p).freeCount = s.freeCount := rfl
@[simp] theorem State.judge_pending (s : State) (p : PromoFrames) : (s.judge p).pending = s.pending := rfl

/-- Once judged, the promo frames are the same at every later event of the reference frame (R155). -/
@[simp] theorem State.promoFrames_judge (s : State) (p q : PromoFrames) :
    (s.judge p).promoFrames q = s.promoFrames p := rfl
@[simp] theorem State.inputs_pgm (s : State) (i : FrameInputs) : (s.inputs i).pgm = i.pgm := rfl
@[simp] theorem State.inputs_promo (s : State) (i : FrameInputs) : (s.inputs i).promo = s.promoFrames i.promo := rfl

@[simp] theorem Pool.setRecord_queue (p : Pool) (ch : Channel) (r : Request) : (p.setRecord ch r).queue = p.queue := rfl
@[simp] theorem Pool.setRecord_records (p : Pool) (ch : Channel) (r : Request) :
    (p.setRecord ch r).records = p.records.set ch r := rfl
@[simp] theorem Pool.leaveQueue_queue (p : Pool) (ch : Channel) :
    (p.leaveQueue ch).queue = p.queue.filter (· ≠ ch) := rfl
@[simp] theorem Pool.leaveQueue_records (p : Pool) (ch : Channel) : (p.leaveQueue ch).records = p.records := rfl

@[simp] theorem Reporter.raise_flags (r : Reporter) (f : Flag) : (r.raise f).flags = r.flags ||| f.word := rfl
@[simp] theorem Reporter.raise_results (r : Reporter) (f : Flag) : (r.raise f).results = r.results := rfl
@[simp] theorem Reporter.raise_omitted (r : Reporter) (f : Flag) : (r.raise f).omitted = r.omitted := rfl
@[simp] theorem Reporter.raise_last (r : Reporter) (f : Flag) : (r.raise f).last = r.last := rfl
@[simp] theorem Reporter.raise_readback (r : Reporter) (f : Flag) : (r.raise f).readback = r.readback := rfl
@[simp] theorem Reporter.record_flags (r : Reporter) (l : LastJunction) : (r.record l).flags = r.flags := rfl
@[simp] theorem Reporter.record_results (r : Reporter) (l : LastJunction) : (r.record l).results = r.results := rfl
@[simp] theorem Reporter.record_omitted (r : Reporter) (l : LastJunction) : (r.record l).omitted = r.omitted := rfl
@[simp] theorem Reporter.record_last (r : Reporter) (l : LastJunction) : (r.record l).last = some l := rfl
@[simp] theorem Reporter.record_readback (r : Reporter) (l : LastJunction) : (r.record l).readback = r.readback := rfl

@[simp] theorem Reporter.raiseIf_true (r : Reporter) (f : Flag) : r.raiseIf true f = r.raise f := rfl
@[simp] theorem Reporter.raiseIf_false (r : Reporter) (f : Flag) : r.raiseIf false f = r := rfl

end Sys2Proof.Machine
end

