-- ==== Sys2Proof/Laws/Changes.lean ====
section
/-!
SUPPORT. What a step can do, said once: every command and event is a run of the changes listed in `Change`, so that a
property each of them keeps is kept by every step.
-/

namespace Sys2Proof.Machine

/-- The changes the commands and events are made of, each with what holds where it is made. -/
inductive Change : State → State → Prop
  /-- A sticky event flag set (R177). -/
  | raise (s : State) (ch : Channel) (f : Flag) : Change s (s.raise ch f)
  /-- The last-junction record written by the schedule (R178). -/
  | record (s : State) (ch : Channel) (l : LastJunction) : Change s (s.modReporter ch (·.record l))
  /-- A result appended (R176). -/
  | append (s : State) (ch : Channel) (e : ResultEntry) : Change s (s.modReporter ch (·.append e))
  /-- Flags cleared (R177). -/
  | clearMask (s : State) (ch : Channel) (m : BitVec 16) : Change s (s.modReporter ch (·.clearMask m))
  /-- The readback section set or emptied (R179). -/
  | readback (s : State) (ch : Channel) (r : Option Readback) :
      Change s (s.modReporter ch ({ · with readback := r }))
  /-- The reset arm cleared by the taking of a packet (R171). -/
  | disarm (s : State) (ch : Channel) : Change s (s.modParser ch ({ · with arm := none }))
  /-- The skip flag set (R166). -/
  | skip (s : State) (ch : Channel) : Change s (s.modParser ch ({ · with skip := true }))
  /-- The addressing settings replaced (R169). -/
  | addressing (s : State) (ch : Channel) (u : RawUnit) (a : Addressing) (h : addressingOf u = some a) :
      Change s (s.modParser ch ({ · with addressing := a }))
  /-- The reset arm set (R171). -/
  | armReset (s : State) (ch : Channel) (sc : Scope) :
      Change s (s.modParser ch ({ · with arm := some { scope := sc, window := 2 } }))
  /-- The reset arm counted (R171). -/
  | countArm (s : State) (ch : Channel) : Change s (s.modParser ch (·.countArm))
  /-- A control packet counted (R161). -/
  | countPacket (s : State) (ch : Channel) (h : (s.chan ch).parser.packetCount < Config.packetLimit) :
      Change s (s.modParser ch ({ · with packetCount := (s.chan ch).parser.packetCount + 1 }))
  /-- A new input frame (R161, R166). -/
  | newFrame (s : State) (ch : Channel) : Change s (s.modParser ch (·.newFrame))
  /-- A packet put on OUT-x (R164). -/
  | output (s : State) (ch : Channel) (f : Output → Output) :
      Change s (s.modChan ch fun c => { c with output := f c.output })
  /-- An insert placed (R6, R10, R11). -/
  | insert (s : State) (ch : Channel) (e : Entry) (start : FrameValue) (late : Bool) (l : Nat) (f : InsertFields)
      (he : entryOf start late l f = some e) (hl : l ≤ (s.chan ch).schedule.tolerance)
      (hd : ∀ g ∈ (s.chan ch).schedule.entries, g.start ≠ e.start)
      (hf : (s.chan ch).schedule.entries.length < Config.scheduleSize) :
      Change s (s.modChan ch fun c =>
        { c with
          schedule := { c.schedule with entries := insertEntry s.ref.sfc e c.schedule.entries }
          reporter := c.reporter.raiseIf e.late .lateTaken })
  /-- Entries removed from a schedule (R12, R13, R16). -/
  | keepEntries (s : State) (ch : Channel) (keep : Entry → Bool) :
      Change s (s.modChan ch fun c =>
        { c with schedule := { c.schedule with entries := c.schedule.entries.filter keep } })
  /-- The late tolerance set (R7). -/
  | tolerance (s : State) (ch : Channel) (v : Nat) :
      Change s (s.modChan ch fun c => { c with schedule := { c.schedule with tolerance := min v Config.maxTolerance } })
  /-- An operation accepted (R107 to R109). -/
  | startOperation (s : State) (op : Operation) (h : s.library.operation = none)
      (ht : ∀ i t, op = .write i t → ∃ r, templateOf r = some t) : Change s (startOperation op s)
  /-- A volatile slot written or blanked (R106, R108). -/
  | volatileSlot (s : State) (j : Fin 8) (v : Option Template) (ht : ∀ t, v = some t → ∃ r, templateOf r = some t) :
      Change s { s with library := s.library.setVolatile j v }
  /-- STORE_FAIL set (R112). -/
  | storeFail (s : State) : Change s { s with library := { s.library with storeFail := true } }
  /-- The library frame event (R154). -/
  | libraryWork (s : State) : Change s (libraryWork s)
  /-- Locks, the guard state or the LIBGUARD sense changed (R124 to R127). -/
  | protection (s : State) (p : LibraryProtection) (h : p.record = s.protection.record) :
      Change s { s with protection := p }
  /-- Management enable set (R168). -/
  | management (s : State) (m : PerChannel Bool) (h : (m.a || m.b || m.c || m.d) = true) :
      Change s { s with management := m }
  /-- A reference frame opened (R148). -/
  | openFrame (s : State) : Change s (openFrame s)
  /-- The reference state or the qualifying count changed (R148, R149). -/
  | reference (s : State) (r : RefCounter) (hr : r.rate = s.ref.rate) (hs : r.sfc = s.ref.sfc)
      (h : r = s.ref.lock ∨ r = s.ref.lose ∨
        s.ref.state = .freeRun ∧ ∃ n ≤ Config.qualifyCount, r = { s.ref with qualifying := some n }) :
      Change s { s with ref := r }
  /-- The SFC replaced, with its notices (R151). -/
  | setTime (s : State) (v : FrameValue) : Change s (setTimeBody v s).1
  /-- The grant test (R92). -/
  | grantTest (s : State) : Change s (grantTest s)
  /-- The arm test (R14). -/
  | armTest (s : State) (ch : Channel) : Change s (armTest ch s)
  /-- END marked (R36). -/
  | markEnd (s : State) (ch : Channel) (h : (s.chan ch).engine.state = .squeeze ∨ (s.chan ch).engine.state = .held ∨
      (s.chan ch).engine.state = .promoFull) :
      Change s (s.modChan ch fun c => { c with engine := { c.engine with marker := some .endCommand } })
  /-- The watch counter reloaded (R34). -/
  | reloadWatch (s : State) (ch : Channel) (w : Nat) (h : (s.chan ch).engine.state = .held)
      (hw : (s.chan ch).engine.record.bind (·.watch) = some w) :
      Change s (s.modChan ch fun c => { c with engine := { c.engine with watch := some w } })
  /-- A junction aborted (R44). -/
  | abort (s : State) (ch : Channel) (h : (s.chan ch).engine.state ≠ .idle) :
      Change s (endWith ch .aborted ChannelState.emptyBanks (s.modChan ch (·.aborting)))
  /-- A bank opened (R70, R71). -/
  | openLoad (s : State) (ch : Channel) (b : BankId) (count : Nat) (f : Bool) (h : 1 ≤ count ∧ count ≤ 31)
      (hb : ((s.chan ch).promo.bank b).state ≠ .playing) : Change s (s.modChan ch (·.openLoad b count f))
  /-- Items appended (R72, R74). -/
  | appendItems (s : State) (ch : Channel) (x : LoadContext) (its : List Item)
      (hx : (s.chan ch).parser.context = some x) (h : its.length ≤ x.remaining) :
      Change s (s.modChan ch (·.appendItems x its))
  /-- A load dropped (R75). -/
  | dropLoad (s : State) (ch : Channel) (x : LoadContext) (hx : (s.chan ch).parser.context = some x) :
      Change s (s.modChan ch (·.dropLoad x))
  /-- The load context counted (R76). -/
  | countLoad (s : State) (ch : Channel) : Change s (s.modChan ch (·.countLoad))
  /-- A channel reset (R172). -/
  | channelReset (s : State) (ch : Channel) : Change s (channelReset ch s)
  /-- A part reset (R172). -/
  | partReset (s : State) : Change s (partReset s)
  /-- Power applied (R119). -/
  | powerOn (s : State) (frs1 frs0 : Bool) : Change s (powerOn frs1 frs0 s)
  /-- A junction's work at a channel frame event (R26, R31, R80). -/
  | junctionFrame (s : State) (ch : Channel) (v : PromoValidity) : Change s (junctionFrame ch v s).1
  /-- The engine's own work at an event (R31). -/
  | engineWork (s : State) (ch : Channel) : Change s (engineWork ch s)
  /-- The Promo List's own work at an event (R78 to R83). -/
  | takeList (s : State) (ch : Channel) (v : PromoValidity) (h : (s.chan ch).engine.state.advancesItems = true) :
      Change s (s.modChan ch fun c => c.takeList (c.turn v))
  /-- The promo inputs of a reference frame judged (R155). -/
  | judge (s : State) (offered : PromoFrames) : Change s (s.judge offered)
  /-- A frame built (R134 to R144). -/
  | compose (s : State) (ch : Channel) (rate : FrameRate) (inp : FrameInputs) (view : FrameView) :
      Change s (s.modChan ch (·.compose rate inp view))
  /-- The status packet built (R175). -/
  | status (s : State) (ch : Channel) (v : Validity) : Change s (statusWork ch v s)

/-- A run of changes. -/
inductive Changes : State → State → Prop
  | none (s : State) : Changes s s
  | step {s t u : State} (h : Changes s t) (h' : Change t u) : Changes s u

theorem Change.run {s t : State} (h : Change s t) : Changes s t := .step (.none s) h

theorem Changes.trans {s t u : State} (h : Changes s t) (h' : Changes t u) : Changes s u := by
  induction h' with
  | none => exact h
  | step _ hc ih => exact .step ih hc

/-- A property each change keeps is kept by a run of changes. -/
theorem Changes.keep {p : State → Prop} (hp : ∀ s t, Change s t → p s → p t) {s t : State} (h : Changes s t)
    (hs : p s) : p t := by
  induction h with
  | none => exact hs
  | step _ hc ih => exact hp _ _ hc ih

/-! ### The bodies of the commands -/

/-- A body of a command is a run of changes. -/
def Runs (body : State → State × ResultCode) : Prop := ∀ s, Changes s (body s).1

theorem changes_take {ch : Channel} {kind : Nat} {m : Match} {body : State → State × ResultCode} (h : Runs body)
    (s : State) : Changes s (take ch kind m body s) :=
  (((Change.disarm s ch).run).trans (h _)).step (.append _ ch _)

theorem runs_ifManager {ch : Channel} {body : State → State × ResultCode} (h : Runs body) :
    Runs (ifManager ch body) := fun s => by
  unfold ifManager
  split
  · exact h s
  · exact .none s

theorem runs_guarded {body : State → State × ResultCode} (h : Runs body) : Runs (guarded body) := fun s => by
  unfold guarded
  split
  · exact .none s
  · exact h s

theorem changes_badCommand (ch : Channel) (kind : Nat) (m : Match) (s : State) :
    Changes s (badCommand ch kind m s) := changes_take (fun s => (Change.skip s ch).run) s

theorem changes_placeEntry {ch : Channel} {e : Entry} {s : State} {start : FrameValue} {late : Bool} {l : Nat}
    {f : InsertFields} (he : entryOf start late l f = some e) (hl : l ≤ (s.chan ch).schedule.tolerance) :
    Changes s (placeEntry ch e s).1 := by
  unfold placeEntry
  dsimp only
  split
  · exact .none s
  · split
    · exact .none s
    · rename_i hd
      split
      · exact .none s
      · rename_i hfull
        simp only [List.any_eq_true, decide_eq_true_eq, not_exists, not_and] at hd
        exact (Change.insert s ch e start late l f he hl hd (by omega)).run.step (.armTest _ ch)

theorem runs_schedule (ch : Channel) (start : FrameValue) (f : InsertFields) : Runs (scheduleBody ch start f) :=
  fun s => by
    unfold scheduleBody
    dsimp only
    split
    · exact .none s
    · rename_i e he
      split
      · exact .none s
      · rename_i hl
        refine changes_placeEntry he ?_
        by_cases ht : (ahead start s.ref.sfc || decide (start = s.ref.sfc)) = true
        · simp [ht]
        · simp only [ht, Bool.not_false, Bool.true_and, decide_eq_true_eq] at hl ⊢
          simpa using hl

theorem runs_cue (ch : Channel) (offset : Nat) (f : InsertFields) : Runs (cueBody ch offset f) := fun s => by
  unfold cueBody
  split
  · exact .none s
  · split
    · exact .none s
    · rename_i he
      exact changes_placeEntry he (Nat.zero_le _)

theorem runs_delete (ch : Channel) (start : FrameValue) : Runs (deleteBody ch start) := fun s => by
  unfold deleteBody
  split
  · exact (Change.keepEntries s ch _).run
  · exact .none s

theorem runs_clearSchedule (ch : Channel) : Runs (clearScheduleBody ch) := fun s => by
  have h := (Change.keepEntries s ch fun _ => false).run
  have hn : ∀ l : List Entry, l.filter (fun _ => false) = [] := fun l => by simp
  simpa only [clearScheduleBody, hn] using h

theorem runs_setTolerance (ch : Channel) (v : Nat) : Runs (setToleranceBody ch v) := fun s =>
  (Change.tolerance s ch v).run

theorem runs_end (ch : Channel) : Runs (endBody ch) := fun s => by
  unfold endBody
  split
  · exact (Change.markEnd s ch (.inl ‹_›)).run
  · exact (Change.markEnd s ch (.inr (.inl ‹_›))).run
  · exact (Change.markEnd s ch (.inr (.inr ‹_›))).run
  all_goals exact .none s

theorem State.modChan_eq_self {s : State} {ch : Channel} {f : ChannelState → ChannelState}
    (h : f (s.chan ch) = s.chan ch) : s.modChan ch f = s := by
  unfold State.modChan State.setChan
  rw [h]
  unfold State.chan
  rw [PerChannel.set_get]

theorem runs_extend (ch : Channel) : Runs (extendBody ch) := fun s => by
  unfold extendBody
  split
  · rename_i hst
    cases hw : (s.chan ch).engine.record.bind (·.watch) with
    | none =>
      rw [State.modChan_eq_self (by simp only [hw])]
      exact .none s
    | some w =>
      have h := (Change.reloadWatch s ch w hst hw).run
      unfold State.modChan at h ⊢
      simpa only [hw] using h
  all_goals exact .none s

theorem runs_abort (ch : Channel) : Runs (abortBody ch) := fun s => by
  unfold abortBody
  split
  · exact .none s
  · rename_i h
    exact (Change.abort s ch h).run

theorem runs_openBank (ch : Channel) (bank count chain : Nat) : Runs (openBankBody ch bank count chain) :=
  fun s => by
    unfold openBankBody
    split
    · rename_i b f _ _
      split
      · exact .none s
      · rename_i hc
        split
        · exact .none s
        · rename_i hb
          exact (Change.openLoad s ch b count f (by omega) hb).run
    · exact .none s

theorem length_itemsOf {raw : List RawItem} {its : List Item} (h : itemsOf raw = some its) :
    its.length = raw.length := by
  induction raw generalizing its with
  | nil => cases h; rfl
  | cons r raw ih =>
    simp only [itemsOf] at h
    split at h
    · cases h
      simp [ih ‹_›]
    · cases h

theorem runs_items (ch : Channel) (raw : List RawItem) : Runs (itemsBody ch raw) := fun s => by
  unfold itemsBody
  split
  · exact .none s
  · rename_i x hx
    split
    · exact .none s
    · rename_i hle
      split
      · exact .none s
      · rename_i its hi
        exact (Change.appendItems s ch x its hx (by rw [length_itemsOf hi]; omega)).run

theorem runs_cancelLoad (ch : Channel) : Runs (cancelLoadBody ch) := fun s => by
  unfold cancelLoadBody
  split
  · exact .none s
  · rename_i x hx
    exact (Change.dropLoad s ch x hx).run

theorem runs_setUnit (ch : Channel) (u : RawUnit) : Runs (setUnitBody ch u) := fun s => by
  unfold setUnitBody
  split
  · exact .none s
  · rename_i a ha
    exact (Change.addressing s ch u a ha).run

theorem runs_setManagement (flags : Byte) : Runs (setManagementBody flags) := fun s => by
  unfold setManagementBody
  dsimp only
  split
  · rename_i h
    exact (Change.management s _ h).run
  · exact .none s

theorem runs_resetArm (ch : Channel) (scope : Nat) : Runs (resetArmBody ch scope) := fun s => by
  unfold resetArmBody
  split
  · exact .none s
  · split
    · exact .none s
    · exact (Change.armReset s ch _).run

theorem runs_reset (ch : Channel) (before : Option ResetArm) (scope : Nat) : Runs (resetBody ch before scope) :=
  fun s => by
    unfold resetBody
    split
    · exact .none s
    · split
      · exact .none s
      · split
        · exact .none s
        · split
          · exact (Change.channelReset s ch).run
          · exact (Change.partReset s).run

theorem runs_readback (ch : Channel) (t a b : Nat) : Runs (readbackBody ch t a b) := fun s => by
  unfold readbackBody
  split
  · exact (Change.readback s ch _).run
  · exact (Change.readback s ch _).run
  · exact .none s

theorem changes_storeOrErase (i : SlotIndex) (op : Operation)
    (ht : ∀ i t, op = .write i t → ∃ r, templateOf r = some t) (s : State) : Changes s (storeOrErase i op s).1 := by
  unfold storeOrErase
  split
  · exact .none s
  · rename_i h
    split
    · exact (Change.storeFail s).run
    · exact (Change.startOperation s op (by simpa using h) ht).run

theorem runs_templateWrite (slot : Nat) (raw : RawTemplate) : Runs (templateWriteBody slot raw) := fun s => by
  unfold templateWriteBody
  split
  · rename_i ht _
    exact changes_storeOrErase _ _ (fun _ _ h => by cases h; exact ⟨raw, ht⟩) s
  · rename_i ht _ _
    exact (Change.volatileSlot s _ _ fun _ h => by cases h; exact ⟨raw, ht⟩).run
  · exact .none s

theorem runs_templateErase (slot : Nat) : Runs (templateEraseBody slot) := fun s => by
  unfold templateEraseBody
  split
  · exact changes_storeOrErase _ _ (fun _ _ h => by cases h) s
  · exact (Change.volatileSlot s _ _ fun _ h => by cases h).run
  · exact .none s

theorem runs_protectSet (r : RawProtection) : Runs (protectSetBody r) := fun s => by
  unfold protectSetBody
  split
  · exact .none s
  · refine runs_guarded (fun s => ?_) s
    split
    · exact .none s
    · rename_i h
      refine (Change.startOperation s (.protectSet _) (by simpa using h) ?_).run
      intro _ _ h
      cases h

theorem runs_setLocks (f : State → Vector Bool 32) : Runs (fun s => setLocks (f s) s) := fun s =>
  (Change.protection s { s.protection with locks := f s } rfl).run

theorem runs_lock (slot : Nat) (v : Bool) : Runs (lockBody slot v) := fun s => by
  unfold lockBody
  split
  · exact .none s
  · exact runs_guarded (runs_setLocks _) s

theorem runs_lockAll (v : Bool) : Runs (lockAllBody v) := runs_guarded (runs_setLocks fun _ => _)

theorem runs_freeze : Runs freezeBody := fun s =>
  (Change.protection s { s.protection with guardState := .frozen } rfl).run

theorem runs_setTime (v : FrameValue) : Runs (setTimeBody v) := fun s => (Change.setTime s v).run

/-- Every command a parser hands on is a run of changes. -/
theorem changes_runCommand (ch : Channel) (m : Match) (c : Command) (s : State) :
    Changes s (runCommand ch m c s) := by
  cases c <;> simp only [runCommand]
  case schedule => exact changes_take (runs_schedule _ _ _) s
  case cue => exact changes_take (runs_cue _ _ _) s
  case delete => exact changes_take (runs_delete _ _) s
  case clearSchedule => exact changes_take (runs_clearSchedule _) s
  case setTolerance => exact changes_take (runs_setTolerance _ _) s
  case endHold => exact changes_take (runs_end _) s
  case extend => exact changes_take (runs_extend _) s
  case abort => exact changes_take (runs_abort _) s
  case openBank => exact changes_take (runs_openBank _ _ _ _) s
  case items =>
    unfold takeItems
    split
    · exact changes_badCommand _ _ _ s
    · exact changes_take (runs_items _ _) s
  case cancelLoad => exact changes_take (runs_cancelLoad _) s
  case setUnit => exact changes_take (runs_setUnit _ _) s
  case clearEvents => exact changes_take (fun s => (Change.clearMask s ch _).run) s
  case readback => exact changes_take (runs_readback _ _ _ _) s
  case resetArm => exact changes_take (runs_resetArm _ _) s
  case reset => exact changes_take (runs_reset _ _ _) s
  case setTime => exact changes_take (runs_ifManager (runs_setTime _)) s
  case templateWrite => exact changes_take (runs_ifManager (runs_templateWrite _ _)) s
  case templateErase => exact changes_take (runs_ifManager (runs_templateErase _)) s
  case protectSet => exact changes_take (runs_ifManager (runs_protectSet _)) s
  case lockSlot => exact changes_take (runs_ifManager (runs_lock _ _)) s
  case unlockSlot => exact changes_take (runs_ifManager (runs_lock _ _)) s
  case lockAll => exact changes_take (runs_ifManager (runs_lockAll _)) s
  case unlockAll => exact changes_take (runs_ifManager (runs_lockAll _)) s
  case freeze => exact changes_take (runs_ifManager runs_freeze) s
  case setManagement => exact changes_take (runs_ifManager (runs_setManagement _)) s

/-! ### Packets -/

theorem changes_passPacket (ch : Channel) (arr : Arrival) (s : State) : Changes s (passPacket ch arr s) :=
  (Change.output s ch fun o => o.pass arr.afterFrameEvent arr.packet).run

theorem changes_passUnlessConsumed (ch : Channel) (arr : Arrival) (b : Bool) (s : State) :
    Changes s (passUnlessConsumed ch arr b s) := by
  unfold passUnlessConsumed
  split
  · exact .none s
  · exact changes_passPacket ch arr s

theorem changes_takePayload (ch : Channel) (m : Match) (rest : List Nat) (s : State) :
    Changes s (takePayload ch m rest s) := by
  unfold takePayload
  split
  · exact changes_badCommand _ _ _ s
  · split
    · exact changes_badCommand _ _ _ s
    · exact changes_runCommand _ _ _ s

theorem changes_controlArrival (ch : Channel) (arr : Arrival) (s : State) :
    Changes s (controlArrival ch arr s) := by
  unfold controlArrival
  dsimp only
  split
  · exact (Change.raise s ch _).run.trans (changes_passPacket _ _ _)
  · rename_i h
    have hc := (Change.countPacket s ch (by omega)).run
    split
    · exact hc.trans (changes_passPacket _ _ _)
    · exact hc.trans (changes_passUnlessConsumed _ _ _ _)
    · exact (hc.trans (changes_takePayload _ _ _ _)).trans (changes_passUnlessConsumed _ _ _ _)

theorem changes_packetWork (ch : Channel) (arr : Arrival) (s : State) : Changes s (packetWork ch arr s) := by
  unfold packetWork
  split
  · exact .none s
  · split
    · unfold blankingArrival
      dsimp only
      have h1 : Changes s (if arr.first then s.modParser ch (·.newFrame) else s) := by
        split
        · exact (Change.newFrame s ch).run
        · exact .none s
      split
      · exact h1.trans (changes_controlArrival _ _ _)
      · exact h1.trans (changes_passPacket _ _ _)
      · exact h1.trans (changes_passPacket _ _ _)
    · exact changes_passPacket _ _ _

/-! ### Events -/

theorem changes_missFold (ch : Channel) (o : JunctionOutcome) (l : List Entry) (s : State) :
    Changes s (l.foldl (missOne ch o) s) := by
  induction l generalizing s with
  | nil => exact .none s
  | cons e l ih =>
    have h1 : Changes s (missOne ch o s e) := by
      have := ((Change.record s ch (missRecord e o)).run.step (.raise _ ch .missed))
      unfold State.raise State.modReporter at this
      rw [State.modChan_modChan] at this
      exact this
    exact h1.trans (ih _)

theorem changes_missUnless (ch : Channel) (o : JunctionOutcome) (keep : Entry → Bool) (s : State) :
    Changes s (missUnless ch o keep s) :=
  ((Change.keepEntries s ch keep).run).trans (changes_missFold _ _ _ _)

theorem changes_channelFrame (ch : Channel) (inp : FrameInputs) (s : State) :
    Changes s (channelFrame ch inp s) := by
  unfold channelFrame
  dsimp only
  exact (((((((Change.judge s _).run.step (.countLoad _ ch)).step (.countArm _ ch)).step (.junctionFrame _ ch _)).step
    (.armTest _ ch)).trans (changes_missUnless ch _ _ _)).step (.compose _ ch _ _ _)).step (.status _ ch _)

theorem changes_if {b : Bool} {s t : State} (h : b = true → Changes s t) : Changes s (if b then t else s) := by
  split
  · exact h ‹_›
  · exact .none s

theorem changes_openFrame_lock (s : State) : Changes s { openFrame s with ref := (openFrame s).ref.lock } :=
  (Change.openFrame s).run.step (.reference _ _ rfl rfl (.inl rfl))

theorem qualified_le (r : RefCounter) (n : Nat) : r.qualified n ≤ Config.qualifyCount := by
  unfold RefCounter.qualified
  split
  · exact Nat.min_le_right _ _
  · decide

/-- What a step can do: every command and event is a run of changes. -/
theorem changes_exec {i : Instr} {s t : State} (he : exec i s = .next t) : Changes s t := by
  have ew : ∀ b ch, Changes s (engineWorkIf b ch s) := fun b ch =>
    changes_if fun _ => (Change.engineWork s ch).run
  have pw : ∀ b ch inp, Changes s (composerWorkIf b ch inp s) := fun b ch inp =>
    changes_if fun _ => (Change.judge s _).run.step (.compose _ ch _ _ _)
  have lw : ∀ b ch offered v, (b = true → (s.chan ch).engine.state.advancesItems = true) →
      Changes s (listWorkIf b ch offered v s) := fun b ch offered v h =>
    changes_if fun hb => (Change.judge s offered).run.step (.takeList _ ch v (h hb))
  have hn : ∀ (c : ChannelState) v p, (c.nextCount v).any p = true → c.engine.state.advancesItems = true := by
    intro c v p hp
    by_contra hf
    simp [ChannelState.nextCount, hf] at hp
  cases i <;> simp only [exec] at he
  case powerOn => cases he; exact (Change.powerOn s _ _).run
  case referenceFrameEvent =>
    unfold execReferenceFrameEvent at he
    cases he
    split
    · exact changes_openFrame_lock s
    · exact (Change.openFrame s).run
  case refLoss =>
    unfold execRefLoss at he
    split at he <;> cases he
    · exact (Change.openFrame s).run.step (.reference _ _ rfl rfl (.inr (.inl rfl)))
    · exact .none s
  case refFrameStart =>
    unfold execRefFrameStart at he
    split at he
    · cases he
      split
      · exact (Change.openFrame s).run
      · exact .none s
    · rename_i hf
      have hq : ∀ n, n ≤ Config.qualifyCount → Changes s { s with ref := { s.ref with qualifying := some n } } :=
        fun n hn => (Change.reference s { s.ref with qualifying := some n } rfl rfl (.inr (.inr ⟨hf, n, hn, rfl⟩))).run
      cases he
      unfold qualifyStart
      dsimp only
      split
      · split
        · exact (hq _ (qualified_le _ _)).trans (changes_openFrame_lock _)
        · exact hq _ (qualified_le _ _)
      · exact .none s
  case refQualifyMiss =>
    unfold execRefQualifyMiss at he
    split at he
    · cases he; exact .none s
    · rename_i hf
      cases he
      have hq : Changes s { s with ref := { s.ref with qualifying := some 0 } } :=
        (Change.reference s { s.ref with qualifying := some 0 } rfl rfl (.inr (.inr ⟨hf, 0, by decide, rfl⟩))).run
      dsimp only
      split
      · exact hq.step (.openFrame _)
      · exact hq
  case channelFrameEvent => cases he; exact changes_channelFrame _ _ s
  case libraryFrameEvent => cases he; exact (Change.libraryWork s).run
  case operationComplete =>
    unfold execOperationComplete at he
    cases he
    exact changes_if fun _ => (Change.libraryWork s).run
  case fetchServed =>
    unfold execFetchServed at he
    cases he
    split
    · exact (Change.libraryWork s).run
    · exact .none s
  case packetArrival => cases he; exact changes_packetWork _ _ s
  case schedule => cases he; exact changes_runCommand _ _ (.schedule ..) s
  case cue => cases he; exact changes_runCommand _ _ (.cue ..) s
  case delete => cases he; exact changes_runCommand _ _ (.delete ..) s
  case clearSchedule => cases he; exact changes_runCommand _ _ .clearSchedule s
  case setTolerance => cases he; exact changes_runCommand _ _ (.setTolerance ..) s
  case endHold => cases he; exact changes_runCommand _ _ .endHold s
  case extend => cases he; exact changes_runCommand _ _ .extend s
  case abort => cases he; exact changes_runCommand _ _ .abort s
  case openBank => cases he; exact changes_runCommand _ _ (.openBank ..) s
  case items => cases he; exact changes_runCommand _ _ (.items ..) s
  case cancelLoad => cases he; exact changes_runCommand _ _ .cancelLoad s
  case setUnit => cases he; exact changes_runCommand _ _ (.setUnit ..) s
  case clearEvents => cases he; exact changes_runCommand _ _ (.clearEvents ..) s
  case readback => cases he; exact changes_runCommand _ _ (.readback ..) s
  case resetArm => cases he; exact changes_runCommand _ _ (.resetArm ..) s
  case reset => cases he; exact changes_runCommand _ _ (.reset ..) s
  case resetArmExpiry =>
    unfold execResetArmExpiry at he
    cases he
    split
    · split
      · exact (Change.countArm s _).run
      · exact .none s
    · exact .none s
  case setTime => cases he; exact changes_runCommand _ _ (.setTime ..) s
  case templateWrite => cases he; exact changes_runCommand _ _ (.templateWrite ..) s
  case templateErase => cases he; exact changes_runCommand _ _ (.templateErase ..) s
  case protectSet => cases he; exact changes_runCommand _ _ (.protectSet ..) s
  case lockSlot => cases he; exact changes_runCommand _ _ (.lockSlot ..) s
  case unlockSlot => cases he; exact changes_runCommand _ _ (.unlockSlot ..) s
  case lockAll => cases he; exact changes_runCommand _ _ .lockAll s
  case unlockAll => cases he; exact changes_runCommand _ _ .unlockAll s
  case freeze => cases he; exact changes_runCommand _ _ .freeze s
  case setManagement => cases he; exact changes_runCommand _ _ (.setManagement ..) s
  case libguardChange b => cases he; exact (Change.protection s { s.protection with libguard := b } rfl).run
  case arm => cases he; exact (Change.armTest s _).run
  case scalerGrant => cases he; exact (Change.grantTest s).run
  case missedBusy =>
    unfold execMissedBusy at he
    cases he
    split
    · exact .none s
    · exact changes_missUnless _ _ _ s
  case loadTimeout =>
    unfold execLoadTimeout at he
    cases he
    split
    · split
      · exact (Change.countLoad s _).run
      · exact .none s
    · exact .none s
  case itemDurationExpiry => cases he; exact lw _ _ _ _ (hn _ _ _)
  case gateLimitExpiry => cases he; exact lw _ _ _ _ (hn _ _ _)
  case successorStart =>
    cases he
    refine lw _ _ _ _ fun h => ?_
    simp only [ChannelState.leavesItem, Bool.and_eq_true] at h
    exact h.1.1
  case sourceHoldExpiry => cases he; exact pw _ _ _
  case gainRampEnd => cases he; exact pw _ _ _
  all_goals (cases he; exact ew _ _)

/-- A step is a run of changes on the state with the command taken off the queue. -/
theorem changes_step {s t : State} (h : step s = .next t) : ∃ rest, Changes { s with pending := rest } t := by
  unfold step at h
  split at h
  · cases h
    exact ⟨s.pending, .none _⟩
  · rename_i rest _
    exact ⟨rest, changes_exec h⟩

end Sys2Proof.Machine
end

