-- ==== Sys2Proof/Laws/Ops.lean ====
section
/-!
SUPPORT. One lemma for each shared operation of Machine/Ops.lean, saying what it does and what it leaves: the Scaler
Pool and Arbiter, the Template Library, schedule order, and the taking of a command.
-/

namespace Sys2Proof.Machine

/-! ### Schedule order -/

theorem orderKey_inj {sfc v w : FrameValue} : orderKey sfc v = orderKey sfc w ↔ v = w := by
  unfold orderKey
  rw [BitVec.toInt_inj]
  constructor
  · intro h
    simpa using congrArg (· + sfc) h
  · rintro rfl; rfl

/-- A start frame is ahead of the SFC exactly when its key is positive (R150). -/
theorem ahead_iff_orderKey {v sfc : FrameValue} : ahead v sfc = true ↔ 0 < orderKey sfc v := by
  unfold ahead orderKey
  simp only [Bool.and_eq_true, decide_eq_true_eq, BitVec.toInt_eq_toNat_cond]
  have := (v - sfc).isLt
  split <;> omega

theorem mem_insertEntry {sfc : FrameValue} {e f : Entry} {l : List Entry} :
    f ∈ insertEntry sfc e l ↔ f = e ∨ f ∈ l := by
  induction l with
  | nil => simp [insertEntry]
  | cons g l ih =>
    simp only [insertEntry]
    split
    · simp
    · simp [ih]; tauto

@[simp] theorem length_insertEntry (sfc : FrameValue) (e : Entry) (l : List Entry) :
    (insertEntry sfc e l).length = l.length + 1 := by
  induction l with
  | nil => rfl
  | cons g l ih => simp only [insertEntry]; split <;> simp [ih]

theorem mem_orderEntries {sfc : FrameValue} {f : Entry} {l : List Entry} : f ∈ orderEntries sfc l ↔ f ∈ l := by
  induction l with
  | nil => simp [orderEntries]
  | cons g l ih => simp [orderEntries, mem_insertEntry, ih]

@[simp] theorem length_orderEntries (sfc : FrameValue) (l : List Entry) :
    (orderEntries sfc l).length = l.length := by
  induction l with
  | nil => rfl
  | cons g l ih => simp [orderEntries, ih]

/-- Entries stand in schedule order with distinct start frames (R4, R10). -/
abbrev InOrder (sfc : FrameValue) (l : List Entry) : Prop :=
  l.Pairwise fun e f => orderKey sfc e.start < orderKey sfc f.start

/-- An entry with a new start frame keeps the order (R4, R11). -/
theorem inOrder_insertEntry {sfc : FrameValue} {e : Entry} {l : List Entry} (h : InOrder sfc l)
    (hne : ∀ f ∈ l, f.start ≠ e.start) : InOrder sfc (insertEntry sfc e l) := by
  induction l with
  | nil => simp [insertEntry]
  | cons g l ih =>
    have hg := List.pairwise_cons.mp h
    simp only [insertEntry]
    split
    · rename_i hlt
      refine List.pairwise_cons.mpr ⟨fun x hx => ?_, h⟩
      rcases List.mem_cons.mp hx with rfl | hx
      · exact hlt
      · exact lt_trans hlt (hg.1 x hx)
    · rename_i hlt
      have hne' : orderKey sfc g.start ≠ orderKey sfc e.start :=
        fun he => hne g List.mem_cons_self (orderKey_inj.mp he)
      refine List.pairwise_cons.mpr ⟨fun x hx => ?_, ih hg.2 fun f hf => hne f (List.mem_cons_of_mem _ hf)⟩
      rcases mem_insertEntry.mp hx with rfl | hx
      · omega
      · exact hg.1 x hx

/-- Entries with distinct start frames are put in schedule order (R4). -/
theorem inOrder_orderEntries {sfc : FrameValue} {l : List Entry} (h : l.Pairwise fun e f => e.start ≠ f.start) :
    InOrder sfc (orderEntries sfc l) := by
  induction l with
  | nil => simp [orderEntries]
  | cons g l ih =>
    have hg := List.pairwise_cons.mp h
    refine inOrder_insertEntry (ih hg.2) fun f hf => ?_
    exact (hg.1 f (mem_orderEntries.mp hf)).symm

theorem InOrder.distinct {sfc : FrameValue} {l : List Entry} (h : InOrder sfc l) :
    l.Pairwise fun e f => e.start ≠ f.start :=
  h.imp fun hlt he => absurd (orderKey_inj.mpr he) (ne_of_lt hlt)

/-! ### The grant test -/

/-- A change of a junction record that touches nothing but the scalers granted. -/
def GrantOnly (f : JunctionRecord → JunctionRecord) : Prop :=
  ∃ n : JunctionRecord → Nat, f = fun r => { r with granted := n r }

theorem GrantOnly.id : GrantOnly fun r => r := ⟨fun r => r.granted, rfl⟩

theorem GrantOnly.comp {f g : JunctionRecord → JunctionRecord} (hf : GrantOnly f) (hg : GrantOnly g) :
    GrantOnly fun r => g (f r) := by
  obtain ⟨n, rfl⟩ := hf
  obtain ⟨m, rfl⟩ := hg
  exact ⟨fun r => m { r with granted := n r }, rfl⟩

/-- Two states agree outside the pool and the scalers granted in junction records. -/
def AgreesButGrants (s t : State) : Prop :=
  t.ref = s.ref ∧ t.library = s.library ∧ t.protection = s.protection ∧ t.management = s.management ∧
    t.aligned = s.aligned ∧ t.freeCount = s.freeCount ∧ t.pending = s.pending ∧
    ∀ ch, ∃ f, GrantOnly f ∧ t.chan ch = { s.chan ch with engine := (s.chan ch).engine.modRecord f }

theorem Engine.modRecord_id (e : Engine) : e.modRecord (fun r => r) = e := by cases e; simp [Engine.modRecord]

theorem Engine.modRecord_comp (e : Engine) (f g : JunctionRecord → JunctionRecord) :
    (e.modRecord f).modRecord g = e.modRecord fun r => g (f r) := by
  cases e; simp [Engine.modRecord, Function.comp_def]

theorem AgreesButGrants.of_eq {s t : State} (h : t.channels = s.channels) (h1 : t.ref = s.ref)
    (h2 : t.library = s.library) (h3 : t.protection = s.protection) (h4 : t.management = s.management)
    (h5 : t.aligned = s.aligned) (h6 : t.freeCount = s.freeCount) (h7 : t.pending = s.pending) : AgreesButGrants s t :=
  ⟨h1, h2, h3, h4, h5, h6, h7, fun ch => ⟨_, GrantOnly.id, by simp [State.chan, h, Engine.modRecord_id]⟩⟩

theorem AgreesButGrants.refl (s : State) : AgreesButGrants s s := .of_eq rfl rfl rfl rfl rfl rfl rfl rfl

theorem AgreesButGrants.trans {s t u : State} (h : AgreesButGrants s t) (h' : AgreesButGrants t u) :
    AgreesButGrants s u := by
  obtain ⟨a, b, c, d, x, e, f, g⟩ := h
  obtain ⟨a', b', c', d', x', e', f', g'⟩ := h'
  refine ⟨a'.trans a, b'.trans b, c'.trans c, d'.trans d, x'.trans x, e'.trans e, f'.trans f, fun ch => ?_⟩
  obtain ⟨p, hp, hp'⟩ := g ch
  obtain ⟨q, hq, hq'⟩ := g' ch
  exact ⟨_, hp.comp hq, by rw [hq', hp']; simp [Engine.modRecord_comp]⟩

theorem agreesButGrants_modRecord (s : State) (ch : Channel) {f : JunctionRecord → JunctionRecord}
    (hf : GrantOnly f) : AgreesButGrants s (s.modRecord ch f) := by
  refine ⟨rfl, rfl, rfl, rfl, rfl, rfl, rfl, fun ch' => ?_⟩
  by_cases h : ch' = ch
  · subst h; exact ⟨f, hf, by simp [State.modRecord]⟩
  · exact ⟨_, GrantOnly.id, by rw [State.modRecord_chan_ne _ h, Engine.modRecord_id]⟩

theorem agreesButGrants_grantTo (s : State) (ch : Channel) (n : Nat) : AgreesButGrants s (s.grantTo ch n) := by
  refine .trans (t := { s with pool := _ }) (.of_eq rfl rfl rfl rfl rfl rfl rfl rfl) ?_
  exact agreesButGrants_modRecord _ _ ⟨fun _ => n, rfl⟩

theorem agreesButGrants_grantLoop (n : Nat) (s : State) : AgreesButGrants s (grantLoop n s) := by
  induction n generalizing s with
  | zero => exact .refl s
  | succ n ih =>
    simp only [grantLoop]
    split
    · exact .refl s
    · split
      · exact (agreesButGrants_grantTo s _ _).trans (ih _)
      · exact .refl s

/-- The grant test changes the pool and the scalers granted in junction records, and nothing else (R92). -/
theorem agreesButGrants_grantTest (s : State) : AgreesButGrants s (grantTest s) :=
  .trans (t := { s with pool := _ }) (.of_eq rfl rfl rfl rfl rfl rfl rfl rfl) (agreesButGrants_grantLoop _ _)

theorem agreesButGrants_scalerRequest (ch : Channel) (n : Nat) (start : FrameValue) (s : State) :
    AgreesButGrants s (scalerRequest ch n start s) := by
  unfold scalerRequest
  split
  · exact .of_eq rfl rfl rfl rfl rfl rfl rfl rfl
  · exact .trans (t := { s with pool := _ }) (.of_eq rfl rfl rfl rfl rfl rfl rfl rfl) (agreesButGrants_grantTest _)

theorem agreesButGrants_releaseClaim (ch : Channel) (s : State) : AgreesButGrants s (releaseClaim ch s) :=
  .trans (t := { s with pool := _ }) (.of_eq rfl rfl rfl rfl rfl rfl rfl rfl) (agreesButGrants_grantTest _)

theorem agreesButGrants_claimScalers (ch : Channel) (s : State) : AgreesButGrants s (claimScalers ch s).1 := by
  unfold claimScalers
  dsimp only
  split
  · exact .refl s
  · exact .of_eq rfl rfl rfl rfl rfl rfl rfl rfl
  · exact .refl s

/-! ### The pool -/

/-- A record replaced changes the scalers held by the difference of its grants. -/
theorem Pool.held_setRecord (p : Pool) (ch : Channel) (r : Request) :
    (p.setRecord ch r).held + (p.records.get ch).granted = p.held + r.granted := by
  cases ch <;> simp [Pool.held, PerChannel.set, PerChannel.get] <;> omega

theorem Pool.mem_place {p : Pool} {sfc : FrameValue} {ch x : Channel} {l : List Channel} :
    x ∈ p.place sfc ch l ↔ x = ch ∨ x ∈ l := by
  induction l with
  | nil => simp [Pool.place]
  | cons y l ih => simp only [Pool.place]; split <;> simp [ih]; tauto

theorem Pool.mem_ordered {p : Pool} {sfc : FrameValue} {x : Channel} {l : List Channel} :
    x ∈ p.ordered sfc l ↔ x ∈ l := by
  induction l with
  | nil => simp [Pool.ordered]
  | cons y l ih => simp [Pool.ordered, Pool.mem_place, ih]

theorem Pool.nodup_place {p : Pool} {sfc : FrameValue} {ch : Channel} {l : List Channel} (h : l.Nodup)
    (hn : ch ∉ l) : (p.place sfc ch l).Nodup := by
  induction l with
  | nil => simp [Pool.place]
  | cons y l ih =>
    have hy := List.nodup_cons.mp h
    have hc : ch ≠ y ∧ ch ∉ l := by simpa using hn
    simp only [Pool.place]
    split
    · exact List.nodup_cons.mpr ⟨hn, h⟩
    · refine List.nodup_cons.mpr ⟨fun hm => ?_, ih hy.2 hc.2⟩
      rcases Pool.mem_place.mp hm with rfl | hm
      · exact hc.1 rfl
      · exact hy.1 hm

theorem Pool.nodup_ordered {p : Pool} {sfc : FrameValue} {l : List Channel} (h : l.Nodup) :
    (p.ordered sfc l).Nodup := by
  induction l with
  | nil => simp [Pool.ordered]
  | cons y l ih =>
    have hy := List.nodup_cons.mp h
    exact Pool.nodup_place (ih hy.2) fun hm => hy.1 (Pool.mem_ordered.mp hm)

/-- The queue put in its order holds the same channels. -/
theorem Pool.Sound.reordered {p : Pool} (h : p.Sound) (sfc : FrameValue) :
    ({ p with queue := p.ordered sfc p.queue } : Pool).Sound :=
  ⟨h.1, h.2.1, Pool.nodup_ordered h.2.2.1, fun ch => Pool.mem_ordered.trans (h.2.2.2 ch)⟩

/-- A channel's claim becoming a grant that fits, or nothing, keeps the pool in order. -/
theorem Pool.Sound.resolve {p : Pool} (h : p.Sound) {ch : Channel} {r : Request} (hr : r.Sound)
    (hs : r.state ≠ .waiting) (hg : r.granted ≤ p.free + (p.records.get ch).granted) :
    ((p.leaveQueue ch).setRecord ch r).Sound := by
  obtain ⟨h1, h2, h3, h4⟩ := h
  have hheld := Pool.held_setRecord (p.leaveQueue ch) ch r
  have hsame : (p.leaveQueue ch).held = p.held := rfl
  refine ⟨?_, fun x => ?_, ?_, fun x => ?_⟩
  · simp only [Pool.leaveQueue_records, hsame] at hheld
    simp only [Pool.free, Config.poolSize] at hg h1 ⊢
    omega
  · by_cases hx : x = ch
    · subst hx; simpa using hr
    · simpa [PerChannel.get_set_ne _ hx] using h2 x
  · simpa using h3.filter _
  · by_cases hx : x = ch
    · subst hx; simp [hs]
    · simp [PerChannel.get_set_ne _ hx, hx, h4 x]

theorem State.grantTo_pool (s : State) (ch : Channel) (n : Nat) :
    (s.grantTo ch n).pool =
      (s.pool.leaveQueue ch).setRecord ch { s.pool.records.get ch with state := .granted, granted := n } := rfl

theorem grantLoop_keeps_pool (n : Nat) {s : State} (h : s.pool.Sound) : (grantLoop n s).pool.Sound := by
  induction n generalizing s with
  | zero => exact h
  | succ n ih =>
    simp only [grantLoop]
    split
    · exact h
    · rename_i ch rest hq
      split
      · rename_i hfit
        have hw := (h.2.2.2 ch).mp (by simp [hq])
        have hsound := h.2.1 ch
        simp only [Request.Sound, hw] at hsound
        refine ih ?_
        rw [State.grantTo_pool]
        refine h.resolve ?_ (by simp) ?_
        · simp [Request.Sound, hsound.2.1]
        · simp only; omega
      · exact h

/-- The grant test keeps the pool in order (R92, R94). -/
theorem grantTest_keeps_pool {s : State} (h : s.pool.Sound) : (grantTest s).pool.Sound :=
  grantLoop_keeps_pool _ (h.reordered _)

/-- A grant test grants: it takes no channel's grant and makes no record NONE or WAITING (R92). -/
theorem grantLoop_record_none (n : Nat) (s : State) (ch : Channel) (h : (s.pool.records.get ch).state = .none)
    (hok : s.pool.Sound) : (grantLoop n s).pool.records.get ch = s.pool.records.get ch := by
  induction n generalizing s with
  | zero => rfl
  | succ n ih =>
    simp only [grantLoop]
    split
    · rfl
    · rename_i x rest hq
      split
      · rename_i hfit
        have hw := (hok.2.2.2 x).mp (by simp [hq])
        have hx : ch ≠ x := by rintro rfl; simp [h] at hw
        have hrec : (s.grantTo x (s.pool.records.get x).requested).pool.records.get ch = s.pool.records.get ch := by
          simp [State.grantTo_pool, PerChannel.get_set_ne _ hx]
        have hok' : (s.grantTo x (s.pool.records.get x).requested).pool.Sound := by
          have hsound := hok.2.1 x
          simp only [Request.Sound, hw] at hsound
          rw [State.grantTo_pool]
          refine hok.resolve (by simp [Request.Sound, hsound.2.1]) (by simp) (by simp only; omega)
        rw [ih _ (by rw [hrec]; exact h) hok', hrec]
      · rfl

/-- The grant test leaves a channel with no claim as it is (R92). -/
theorem grantTest_record_none {s : State} {ch : Channel} (h : (s.pool.records.get ch).state = .none)
    (hok : s.pool.Sound) : (grantTest s).pool.records.get ch = s.pool.records.get ch :=
  grantLoop_record_none _ _ ch h (hok.reordered _)

end Sys2Proof.Machine
end

