-- ==== Sys2Proof/Laws/Channels.lean ====
section
/-!
SUPPORT. What a step can do to the blocks of one channel, said once: each change of Laws/Changes.lean is, for each
channel, a run of the changes listed in `ChanChange`. `ok` is any property the templates of the library have.
-/

namespace Sys2Proof.Machine

/-- The changes of one channel's blocks, each with what holds where it is made. The schedule may become any: what
becomes of it depends on the SFC too, and is said by `Change`. -/
inductive ChanChange (ok : Template → Prop) : ChannelState → ChannelState → Prop
  | raise (c : ChannelState) (f : Flag) : ChanChange ok c { c with reporter := c.reporter.raise f }
  | record (c : ChannelState) (l : LastJunction) : ChanChange ok c { c with reporter := c.reporter.record l }
  | append (c : ChannelState) (e : ResultEntry) : ChanChange ok c { c with reporter := c.reporter.append e }
  | clearMask (c : ChannelState) (m : BitVec 16) : ChanChange ok c { c with reporter := c.reporter.clearMask m }
  | readback (c : ChannelState) (r : Option Readback) :
      ChanChange ok c { c with reporter := { c.reporter with readback := r } }
  | disarm (c : ChannelState) : ChanChange ok c { c with parser := { c.parser with arm := none } }
  | skip (c : ChannelState) : ChanChange ok c { c with parser := { c.parser with skip := true } }
  | addressing (c : ChannelState) (u : RawUnit) (a : Addressing) (h : addressingOf u = some a) :
      ChanChange ok c { c with parser := { c.parser with addressing := a } }
  | armReset (c : ChannelState) (sc : Scope) :
      ChanChange ok c { c with parser := { c.parser with arm := some { scope := sc, window := 2 } } }
  | countArm (c : ChannelState) : ChanChange ok c { c with parser := c.parser.countArm }
  | countPacket (c : ChannelState) (h : c.parser.packetCount < Config.packetLimit) :
      ChanChange ok c { c with parser := { c.parser with packetCount := c.parser.packetCount + 1 } }
  | newFrame (c : ChannelState) : ChanChange ok c { c with parser := c.parser.newFrame }
  | output (c : ChannelState) (o : Output) : ChanChange ok c { c with output := o }
  | schedule (c : ChannelState) (x : Schedule) : ChanChange ok c { c with schedule := x }
  | fetch (c : ChannelState) (f : FetchState) : ChanChange ok c { c with fetch := f }
  /-- Fields of the junction record changed that no other block's state depends on. -/
  | fields (c : ChannelState) (f : JunctionRecord → JunctionRecord) (hf : ∀ r, (f r).template = r.template) :
      ChanChange ok c { c with engine := c.engine.modRecord f }
  /-- A template copied into the junction record. -/
  | copy (c : ChannelState) (t : Template) (b : JunctionRecord → Bool) (h : ok t) :
      ChanChange ok c { c with engine := c.engine.modRecord fun r => { r with template := some t, fallbackUsed := b r } }
  /-- An entry armed. -/
  | arm (c : ChannelState) (r : JunctionRecord) (h : c.engine.state = .idle) (hr : r.template = none) :
      ChanChange ok c (c.withEngine { c.engine with state := .armed, record := some r })
  | takeLook (c : ChannelState) : ChanChange ok c c.takeLook
  /-- The rest of a start event. -/
  | start (c : ChannelState) (g : Nat) (r : JunctionRecord) (h : c.engine.state = .armed)
      (hr : c.engine.record = some r) : ChanChange ok c ((c.assignScalers g).startJunction r.firstBank)
  | markEnd (c : ChannelState)
      (h : c.engine.state = .squeeze ∨ c.engine.state = .held ∨ c.engine.state = .promoFull) :
      ChanChange ok c { c with engine := { c.engine with marker := some .endCommand } }
  | reloadWatch (c : ChannelState) (w : Nat) (h : c.engine.state = .held)
      (hw : c.engine.record.bind (·.watch) = some w) :
      ChanChange ok c { c with engine := { c.engine with watch := some w } }
  | aborting (c : ChannelState) (h : c.engine.state ≠ .idle) : ChanChange ok c c.aborting
  /-- A junction ended, other than by ABORT. -/
  | spent (c : ChannelState) (l : LastJunction) (r : JunctionRecord) (h : c.engine.record = some r) :
      ChanChange ok c (c.afterEnd ChannelState.spendBank l)
  /-- A junction ended by ABORT. -/
  | emptied (c : ChannelState) (l : LastJunction) (r : JunctionRecord) (h : c.engine.record = some r) :
      ChanChange ok c (c.afterEnd ChannelState.emptyBanks l)
  | openLoad (c : ChannelState) (b : BankId) (count : Nat) (f : Bool) (h : 1 ≤ count ∧ count ≤ 31)
      (hb : (c.promo.bank b).state ≠ .playing) : ChanChange ok c (c.openLoad b count f)
  | appendItems (c : ChannelState) (x : LoadContext) (its : List Item) (hx : c.parser.context = some x)
      (h : its.length ≤ x.remaining) : ChanChange ok c (c.appendItems x its)
  | dropLoad (c : ChannelState) (x : LoadContext) (hx : c.parser.context = some x) : ChanChange ok c (c.dropLoad x)
  | countLoad (c : ChannelState) : ChanChange ok c c.countLoad
  | channelReset (c : ChannelState) : ChanChange ok c (c.resetBlocks c.parser.afterChannelReset)
  | partReset (c : ChannelState) (ch : Channel) : ChanChange ok c (c.resetBlocks (c.parser.afterPartReset ch))
  | powerOn (c : ChannelState) (ch : Channel) : ChanChange ok c (.atPowerOn ch)
  | runOn (c : ChannelState) (v : PromoValidity) (h : c.engine.state ≠ .idle) (ha : c.engine.state ≠ .armed) :
      ChanChange ok c (c.runOn v).1
  | engineWork (c : ChannelState) (ha : c.engine.state ≠ .armed) :
      ChanChange ok c (c.withEngine (c.engine.work c.promo.itemsRemain c.emptyList).engine)
  | countItem (c : ChannelState) (v : PromoValidity) (h : c.engine.state.advancesItems = true) :
      ChanChange ok c (c.countItem v)
  | takeList (c : ChannelState) (v : PromoValidity) (h : c.engine.state.advancesItems = true) :
      ChanChange ok c (c.takeList (c.turn v))
  | compose (c : ChannelState) (rate : FrameRate) (inp : FrameInputs) (view : FrameView) :
      ChanChange ok c (c.compose rate inp view)
  | status (c : ChannelState) :
      ChanChange ok c { c with reporter := { c.reporter with results := [], omitted := false, readback := none } }

/-- A run of changes of one channel's blocks. -/
inductive ChanRun (ok : Template → Prop) : ChannelState → ChannelState → Prop
  | none (c : ChannelState) : ChanRun ok c c
  | step {c d e : ChannelState} (h : ChanRun ok c d) (h' : ChanChange ok d e) : ChanRun ok c e

section
variable {ok : Template → Prop}

theorem ChanChange.run {c d : ChannelState} (h : ChanChange ok c d) : ChanRun ok c d := .step (.none c) h

theorem ChanRun.trans {c d e : ChannelState} (h : ChanRun ok c d) (h' : ChanRun ok d e) : ChanRun ok c e := by
  induction h' with
  | none => exact h
  | step _ hc ih => exact .step ih hc

theorem ChanRun.of_eq {c d : ChannelState} (h : d = c) : ChanRun ok c d := by
  subst h
  exact .none _

/-- A property of a channel's blocks that each change keeps is kept by a run. -/
theorem ChanRun.keep {p : ChannelState → Prop} (hp : ∀ c d, ChanChange ok c d → p c → p d) {c d : ChannelState}
    (h : ChanRun ok c d) (hc : p c) : p d := by
  induction h with
  | none => exact hc
  | step _ hd ih => exact hp _ _ hd ih

/-- Every channel of one state runs to that of another. -/
def Chans (ok : Template → Prop) (s t : State) : Prop := ∀ ch, ChanRun ok (s.chan ch) (t.chan ch)

theorem Chans.refl (s : State) : Chans ok s s := fun _ => .none _

theorem Chans.trans {s t u : State} (h : Chans ok s t) (h' : Chans ok t u) : Chans ok s u := fun ch =>
  (h ch).trans (h' ch)

theorem Chans.of_eq {s t : State} (h : t.channels = s.channels) : Chans ok s t := fun ch =>
  .of_eq (by simp [State.chan, h])

theorem chans_modChan {s : State} {ch : Channel} {f : ChannelState → ChannelState}
    (h : ChanRun ok (s.chan ch) (f (s.chan ch))) : Chans ok s (s.modChan ch f) := fun x => by
  by_cases hx : x = ch
  · subst hx; simpa using h
  · rw [State.chan_modChan_ne _ hx]; exact .none _

theorem chans_mapChans {s : State} {f : Channel → ChannelState → ChannelState}
    (h : ∀ ch, ChanRun ok (s.chan ch) (f ch (s.chan ch))) : Chans ok s (s.mapChans f) := fun x => by
  simpa using h x

theorem run_raiseIf (c : ChannelState) (b : Bool) (f : Flag) :
    ChanRun ok c { c with reporter := c.reporter.raiseIf b f } := by
  cases b
  · exact .none c
  · exact (ChanChange.raise c f).run

/-! ### The pool -/

theorem AgreesButGrants.chans {s t : State} (h : AgreesButGrants s t) : Chans ok s t := fun ch => by
  obtain ⟨f, ⟨n, rfl⟩, hf⟩ := h.2.2.2.2.2.2.2 ch
  rw [hf]
  exact (ChanChange.fields (s.chan ch) (fun r => { r with granted := n r }) fun _ => rfl).run

theorem chans_modRecord (s : State) (ch : Channel) {f : JunctionRecord → JunctionRecord}
    (hf : ∀ r, (f r).template = r.template) : Chans ok s (s.modRecord ch f) :=
  chans_modChan (ChanChange.fields _ _ hf).run

/-! ### The library -/

/-- Every template the library holds or is writing has a property. -/
def LibOk (ok : Template → Prop) (l : Library) : Prop :=
  (∀ i t, l.storedSlot i = .valid t → ok t) ∧ (∀ j t, l.volatileSlots.get j = some t → ok t) ∧
    ∀ fl i t, l.operation = some fl → fl.op = .write i t → ok t

/-- The template a slot holds has the property (R103, R114). -/
theorem LibOk.content {l : Library} (h : LibOk ok l) (hfb : ok fallbackLayout) {slot : Nat} {t : Template}
    (hc : l.content slot = some t) : ok t := by
  unfold Library.content Library.report at hc
  split at hc
  · rename_i r hr
    split at hr
    · cases hr; cases hc; exact hfb
    · split at hr
      · rename_i i hi
        split at hr <;> cases hr
        cases hc
        exact h.1 _ _ ‹_›
      · split at hr <;> cases hr
        cases hc
        exact h.2.1 _ _ ‹_›
      · cases hr
  · cases hc

theorem chans_serveFetch (f : Fetch) {s : State} (h : LibOk ok s.library) (hfb : ok fallbackLayout) :
    Chans ok s (serveFetch f s) := by
  refine chans_modChan ?_
  have h1 := (ChanChange.fetch (ok := ok) (s.chan f.channel) .served).run
  have h2 := h1.trans (run_raiseIf _ (s.library.content f.slot).isNone .fallbackUsed)
  refine h2.step (.copy _ _ (fun r => r.fallbackUsed || (s.library.content f.slot).isNone) ?_)
  cases hc : s.library.content f.slot with
  | none => exact hfb
  | some t => exact h.content hfb hc

theorem serveFetch_library (f : Fetch) (s : State) : (serveFetch f s).library = s.library := rfl

theorem chans_serveAll (fs : List Fetch) {s : State} (h : LibOk ok s.library) (hfb : ok fallbackLayout) :
    Chans ok s (serveAll fs s) := by
  unfold serveAll
  induction fs generalizing s with
  | nil => exact .refl s
  | cons f fs ih => exact (chans_serveFetch f h hfb).trans (ih (s := serveFetch f s) h)

theorem serveAll_library (fs : List Fetch) (s : State) : (serveAll fs s).library = s.library := by
  unfold serveAll
  induction fs generalizing s with
  | nil => rfl
  | cons f fs ih => exact ih (serveFetch f s)

theorem chans_setFetch (s : State) (ch : Channel) (f : FetchState) : Chans ok s (s.setFetch ch f) :=
  chans_modChan (ChanChange.fetch _ _).run

theorem chans_fetchArrival (ch : Channel) (slot : Nat) {s : State} (h : LibOk ok s.library)
    (hfb : ok fallbackLayout) : Chans ok s (fetchArrival ch slot s) := by
  unfold fetchArrival
  dsimp only
  split
  · exact chans_setFetch _ _ _
  · split
    · exact chans_serveFetch _ h hfb
    · exact chans_setFetch _ _ _

theorem chans_withdrawFetch (ch : Channel) (s : State) : Chans ok s (withdrawFetch ch s) :=
  chans_setFetch _ _ _

theorem storedSlot_setStored (l : Library) (i j : SlotIndex) (v : StoredSlot) :
    (l.setStored i v).storedSlot j = if i = j then v else l.storedSlot j := by
  unfold Library.setStored Library.storedSlot
  simp only [Vector.get_eq_getElem, Vector.getElem_set, Fin.ext_iff]

theorem volatile_setVolatile (l : Library) (i j : Fin 8) (v : Option Template) :
    (l.setVolatile i v).volatileSlots.get j = if i = j then v else l.volatileSlots.get j := by
  unfold Library.setVolatile
  simp only [Vector.get_eq_getElem, Vector.getElem_set, Fin.ext_iff]

theorem LibOk.applyOperation {op : Operation} {s : State} (h : LibOk ok s.library)
    (hop : ∀ i t, op = .write i t → ok t) : LibOk ok (applyOperation op s).library := by
  unfold Machine.applyOperation
  dsimp only
  split
  · rename_i i t
    refine ⟨fun j u hj => ?_, h.2.1, fun fl _ _ hfl => by cases hfl⟩
    rw [show ({ (Library.setStored { s.library with operation := none } i (.valid t)) with storeFail := false } :
      Library).storedSlot j = (Library.setStored { s.library with operation := none } i (.valid t)).storedSlot j
      from rfl, storedSlot_setStored] at hj
    split at hj
    · cases hj; exact hop _ _ rfl
    · exact h.1 _ _ hj
  · rename_i i
    refine ⟨fun j u hj => ?_, h.2.1, fun fl _ _ hfl => by cases hfl⟩
    rw [show ({ (Library.setStored { s.library with operation := none } i .blank) with storeFail := false } :
      Library).storedSlot j = (Library.setStored { s.library with operation := none } i .blank).storedSlot j
      from rfl, storedSlot_setStored] at hj
    split at hj
    · cases hj
    · exact h.1 _ _ hj
  · exact ⟨h.1, h.2.1, fun fl _ _ hfl => by cases hfl⟩

theorem applyOperation_channels (op : Operation) (s : State) : (applyOperation op s).channels = s.channels := by
  unfold applyOperation
  dsimp only
  split <;> rfl

theorem chans_completeOperation (op : Operation) {s : State} (h : LibOk ok s.library)
    (hop : ∀ i t, op = .write i t → ok t) (hfb : ok fallbackLayout) : Chans ok s (completeOperation op s) := by
  unfold completeOperation
  dsimp only
  have h1 : LibOk ok { (applyOperation op s).library with setAside := [] } := h.applyOperation hop
  have h2 : Chans ok s { applyOperation op s with library := { (applyOperation op s).library with setAside := [] } } :=
    .of_eq (applyOperation_channels op s)
  exact h2.trans (chans_serveAll _ h1 hfb)

theorem chans_libraryWork {s : State} (h : LibOk ok s.library) (hfb : ok fallbackLayout) :
    Chans ok s (libraryWork s) := by
  unfold libraryWork
  dsimp only
  split
  · rename_i f rest _
    have h1 : Chans ok s
        { s with library := { s.library with fetchQueue := rest, suspended := s.library.operation.isSome } } :=
      .of_eq rfl
    exact h1.trans (chans_serveFetch _ h hfb)
  · split
    · exact .of_eq rfl
    · rename_i fl hfl
      split
      · have h1 : Chans ok s { s with library := { s.library with suspended := false } } := .of_eq rfl
        exact h1.trans (chans_completeOperation _ h (fun i t hop => h.2.2 _ _ _ hfl hop) hfb)
      · exact .of_eq rfl

/-! ### Arming, misses and junction ends -/

theorem fetchArrival_pool (ch : Channel) (slot : Nat) (s : State) : (fetchArrival ch slot s).pool = s.pool := by
  unfold fetchArrival
  dsimp only
  split
  · rfl
  · split <;> rfl

theorem chans_armEntry {ch : Channel} {e : Entry} {rest : List Entry} {s : State} (h : LibOk ok s.library)
    (hfb : ok fallbackLayout) (hi : (s.chan ch).engine.state = .idle) : Chans ok s (armEntry ch e rest s) := by
  unfold armEntry
  dsimp only
  have h1 := (ChanChange.arm (ok := ok) (s.chan ch) (.opening e (s.library.need e.slot)) hi rfl).run
  refine ((chans_modChan (s := s) (ch := ch) ?_).trans (chans_fetchArrival _ _ ?_ hfb)).trans
    (agreesButGrants_scalerRequest _ _ _ _).chans
  · exact h1.step (.schedule _ _)
  · exact h

theorem chans_armTest (ch : Channel) {s : State} (h : LibOk ok s.library) (hfb : ok fallbackLayout) :
    Chans ok s (armTest ch s) := by
  unfold armTest
  dsimp only
  split
  · split
    · exact chans_armEntry h hfb ‹_›
    · exact .refl s
  · exact .refl s

theorem chans_missFold (ch : Channel) (o : JunctionOutcome) (l : List Entry) (s : State) :
    Chans ok s (l.foldl (missOne ch o) s) := by
  induction l generalizing s with
  | nil => exact .refl s
  | cons e l ih =>
    have h1 : Chans ok s (missOne ch o s e) :=
      chans_modChan ((ChanChange.record (s.chan ch) (missRecord e o)).run.step (.raise _ .missed))
    exact h1.trans (ih _)

theorem chans_missUnless (ch : Channel) (o : JunctionOutcome) (keep : Entry → Bool) (s : State) :
    Chans ok s (missUnless ch o keep s) :=
  (chans_modChan (ChanChange.schedule _ _).run).trans (chans_missFold _ _ _ _)

theorem missFold_library (ch : Channel) (o : JunctionOutcome) (l : List Entry) (s : State) :
    (l.foldl (missOne ch o) s).library = s.library := by
  induction l generalizing s with
  | nil => rfl
  | cons e l ih => exact ih _

theorem missUnless_library (ch : Channel) (o : JunctionOutcome) (keep : Entry → Bool) (s : State) :
    (missUnless ch o keep s).library = s.library := missFold_library _ _ _ _

theorem withdrawFetch_ok (ch : Channel) {s : State} (h : LibOk ok s.library) :
    LibOk ok (withdrawFetch ch s).library := h

theorem AgreesButGrants.library {s t : State} (h : AgreesButGrants s t) : t.library = s.library := h.2.1

/-- A junction end, for every channel: the one whose junction ends, and the others through the scalers its end
frees. -/
theorem chans_endWith (ch : Channel) (o : JunctionOutcome) (lists : ChannelState → ChannelState) {s : State}
    (hl : ∀ c l r, c.engine.record = some r → ChanChange ok c (c.afterEnd lists l)) (h : LibOk ok s.library)
    (hfb : ok fallbackLayout) : Chans ok s (endWith ch o lists s) := by
  unfold endWith
  split
  · exact .refl s
  · rename_i r hr
    have ha := agreesButGrants_releaseClaim ch s
    have h1 : Chans ok s (withdrawFetch ch (releaseClaim ch s)) := ha.chans.trans (chans_withdrawFetch _ _)
    have hrec : ∃ r', ((withdrawFetch ch (releaseClaim ch s)).chan ch).engine.record = some r' := by
      obtain ⟨f, _, hf⟩ := ha.2.2.2.2.2.2.2 ch
      refine ⟨f r, ?_⟩
      unfold withdrawFetch
      rw [State.setFetch_chan_engine]
      rw [show ({ releaseClaim ch s with library := { (releaseClaim ch s).library with
        fetchQueue := (releaseClaim ch s).library.fetchQueue.filter (·.channel ≠ ch)
        setAside := (releaseClaim ch s).library.setAside.filter (·.channel ≠ ch) } } : State).chan ch
        = (releaseClaim ch s).chan ch from rfl, hf]
      simp [hr]
    obtain ⟨r', hr'⟩ := hrec
    refine (h1.trans (chans_modChan (hl _ _ r' hr').run)).trans (chans_armTest _ ?_ hfb)
    have : LibOk ok (releaseClaim ch s).library := by rw [ha.library]; exact h
    exact this

theorem chans_junctionEnd (ch : Channel) (o : JunctionOutcome) {s : State} (h : LibOk ok s.library)
    (hfb : ok fallbackLayout) : Chans ok s (junctionEnd ch o s) :=
  chans_endWith ch o _ (fun c l r hr => .spent c l r hr) h hfb

theorem chans_finishEnd (ch : Channel) (fe : FrameEnd) {s : State} (h : LibOk ok s.library)
    (hfb : ok fallbackLayout) : Chans ok s (finishEnd ch fe s) := by
  unfold finishEnd
  split
  · exact .refl s
  · exact chans_junctionEnd _ _ h hfb
  · exact chans_junctionEnd _ _ h hfb

/-! ### The start event -/

theorem run_fallBack (c : ChannelState) (slot : Nat) (hfb : ok fallbackLayout) : ChanRun ok c (c.fallBack slot) :=
  ((ChanChange.copy (ok := ok) c fallbackLayout (fun r => r.fallbackUsed || decide (slot ≠ 0)) hfb).run).trans
    (run_raiseIf _ (decide (slot ≠ 0)) .fallbackUsed)

theorem chans_templateStep (ch : Channel) {s : State} (hfb : ok fallbackLayout) :
    Chans ok s (templateStep ch s) := by
  unfold templateStep
  split
  · exact (chans_withdrawFetch ch s).trans (chans_modChan ((run_fallBack _ _ hfb).step (.takeLook _)))
  · exact chans_modChan (ChanChange.takeLook _).run

theorem templateStep_library (ch : Channel) {s : State} (h : LibOk ok s.library) :
    LibOk ok (templateStep ch s).library := by
  unfold templateStep
  split
  · exact h
  · exact h

/-- The engine state of every channel after the template step. -/
theorem templateStep_engineState (ch x : Channel) (s : State) :
    ((templateStep ch s).chan x).engine.state = (s.chan x).engine.state := by
  unfold templateStep
  split
  · by_cases hx : x = ch
    · subst hx; simp [ChannelState.takeLook, ChannelState.fallBack, withdrawFetch]; rfl
    · rw [State.chan_modChan_ne _ hx]; unfold withdrawFetch; rw [State.setFetch_chan_ne _ hx]; rfl
  · by_cases hx : x = ch
    · subst hx; simp [ChannelState.takeLook]
    · rw [State.chan_modChan_ne _ hx]

theorem AgreesButGrants.engineState {s t : State} (h : AgreesButGrants s t) (ch : Channel) :
    (t.chan ch).engine.state = (s.chan ch).engine.state := by
  obtain ⟨f, _, hf⟩ := h.2.2.2.2.2.2.2 ch
  rw [hf]
  rfl

theorem AgreesButGrants.record_isSome {s t : State} (h : AgreesButGrants s t) (ch : Channel) :
    (t.chan ch).engine.record.isSome = (s.chan ch).engine.record.isSome := by
  obtain ⟨f, _, hf⟩ := h.2.2.2.2.2.2.2 ch
  rw [hf]
  simp

theorem templateStep_record (ch : Channel) {s : State} (h : (s.chan ch).engine.record.isSome) :
    ((templateStep ch s).chan ch).engine.record.isSome := by
  unfold templateStep
  split
  · simp [ChannelState.takeLook, ChannelState.fallBack, withdrawFetch]; exact h
  · simp [ChannelState.takeLook]; exact h

theorem chans_startEvent (ch : Channel) {s : State} (hfb : ok fallbackLayout)
    (ha : (s.chan ch).engine.state = .armed) : Chans ok s (startEvent ch s).1 := by
  unfold startEvent
  dsimp only
  have h1 := agreesButGrants_claimScalers ch (templateStep ch s)
  have h2 := h1.trans (agreesButGrants_grantTest _)
  have h3 := h2.trans (agreesButGrants_modRecord _ ch
    (f := fun r => { r with granted := (claimScalers ch (templateStep ch s)).2 }) ⟨fun _ => _, rfl⟩)
  have h4 : Chans ok s _ := (chans_templateStep ch hfb).trans h3.chans
  split
  · exact h4
  · rename_i r hr
    split
    · exact h4.trans (chans_modChan (ChanChange.raise _ _).run)
    · refine h4.trans (chans_modChan (ChanChange.start _ _ r ?_ hr).run)
      rw [h3.engineState, templateStep_engineState, ha]

theorem startEvent_library (ch : Channel) {s : State} (h : LibOk ok s.library) :
    LibOk ok (startEvent ch s).1.library := by
  have h1 := agreesButGrants_claimScalers ch (templateStep ch s)
  have h2 := (h1.trans (agreesButGrants_grantTest _)).library
  have h3 := templateStep_library (ok := ok) ch h
  unfold startEvent
  dsimp only
  split
  · simpa [h2] using h3
  · split
    · simpa [h2] using h3
    · simpa [h2] using h3

/-- Where a start event goes on, the engine's state advances items. -/
theorem Engine.showMove_state (e : Engine) : e.showMove.state = e.state := by
  unfold Engine.showMove
  split <;> rfl

theorem Engine.enterHeld_state (e : Engine) (b : Bool) : (e.enterHeld b).state = .held := by
  unfold Engine.enterHeld Engine.markListEnd
  dsimp only
  split <;> rfl

theorem Engine.counterStep_state (e : Engine) (b : Bool) :
    (e.counterStep b).state = .squeeze ∨ (e.counterStep b).state = .held := by
  unfold Engine.counterStep
  dsimp only
  split
  · exact .inl (by rw [Engine.showMove_state])
  · exact .inr (Engine.enterHeld_state _ _)

/-- A start event leaves its engine a record, and one that goes on leaves it in SQUEEZE or HELD (R28, R30). -/
theorem startEvent_goes {ch : Channel} {s t : State} (h : startEvent ch s = (t, .goes))
    (hr : (s.chan ch).engine.record.isSome) :
    (t.chan ch).engine.state = .squeeze ∨ (t.chan ch).engine.state = .held := by
  have h1 := agreesButGrants_claimScalers ch (templateStep ch s)
  have h2 := h1.trans (agreesButGrants_grantTest _)
  have h3 := h2.trans (agreesButGrants_modRecord _ ch
    (f := fun r => { r with granted := (claimScalers ch (templateStep ch s)).2 }) ⟨fun _ => _, rfl⟩)
  have h4 := templateStep_record ch hr
  unfold startEvent at h
  dsimp only at h
  split at h
  · rename_i hn
    rw [← h3.record_isSome ch, hn] at h4
    cases h4
  · split at h
    · cases h
    · cases h
      simp only [State.chan_modChan_same, ChannelState.startJunction, ChannelState.withEngine_engine]
      exact Engine.counterStep_state _ _

/-- A start event that is due finds a record. -/
theorem startDue_record {ch : Channel} {s : State} (h : startDue ch s = true) :
    (s.chan ch).engine.record.isSome := by
  unfold startDue at h
  split at h
  · rename_i hr; simp [hr]
  · cases h

/-! ### The junction's work -/

theorem chans_junctionFrame (ch : Channel) (v : PromoValidity) {s : State} (h : LibOk ok s.library)
    (hfb : ok fallbackLayout) : Chans ok s (junctionFrame ch v s).1 := by
  unfold junctionFrame
  split
  · exact .refl s
  · rename_i ha
    split
    · rename_i hd
      have h1 := chans_startEvent (ok := ok) ch hfb ha
      have h2 := startEvent_library (ok := ok) ch h
      split
      · rename_i s1 he
        rw [he] at h1
        refine h1.trans (chans_modChan (ChanChange.countItem _ v ?_).run)
        rcases startEvent_goes he (startDue_record hd) with hst | hst <;> rw [hst] <;> rfl
      · rename_i s1 fe _ he
        rw [he] at h1 h2
        exact h1.trans (chans_finishEnd _ _ h2 hfb)
    · exact .refl s
  · rename_i hi ha
    have h1 : Chans ok s (s.setChan ch ((s.chan ch).runOn v).1) :=
      chans_modChan (f := fun c => (c.runOn v).1) (ChanChange.runOn _ v hi ha).run
    split
    · rename_i he; rw [he] at h1; exact h1
    · rename_i he; rw [he] at h1; exact h1.trans (chans_junctionEnd _ _ h hfb)
    · rename_i he; rw [he] at h1; exact h1.trans (chans_junctionEnd _ _ h hfb)

theorem chans_engineWork (ch : Channel) {s : State} (h : LibOk ok s.library) (hfb : ok fallbackLayout) :
    Chans ok s (engineWork ch s) := by
  unfold engineWork
  dsimp only
  split
  · rename_i ha
    split
    · exact (chans_startEvent ch hfb ha).trans (chans_finishEnd _ _ (startEvent_library ch h) hfb)
    · exact .refl s
  · rename_i ha
    exact (chans_modChan (ChanChange.engineWork _ ha).run).trans (chans_finishEnd _ _ h hfb)

/-! ### Time jumps -/

theorem chans_jumpSchedule (ch : Channel) (s : State) : Chans ok s (jumpSchedule ch s) := by
  unfold jumpSchedule
  dsimp only
  have h1 : ∀ t : State, Chans ok t (t.raise ch .timeJump) := fun t => chans_modChan (ChanChange.raise _ _).run
  exact ((chans_missUnless _ _ _ _).trans (h1 _)).trans (chans_modChan (ChanChange.schedule _ _).run)

theorem jumpSchedule_library (ch : Channel) (s : State) : (jumpSchedule ch s).library = s.library := by
  unfold jumpSchedule
  simp [missUnless_library]

theorem chans_jumpEngine (ch : Channel) (s : State) : Chans ok s (jumpEngine ch s) := by
  refine chans_modChan ?_
  split
  · exact (ChanChange.fields (s.chan ch) (fun r => { r with lateness := 0 }) fun _ => rfl).run
  · exact .none _

/-! ### Operations that leave the library as it is, or change only its queues -/

theorem fetchArrival_slots (ch : Channel) (slot : Nat) {s : State} (h : LibOk ok s.library) :
    LibOk ok (fetchArrival ch slot s).library := by
  unfold fetchArrival
  dsimp only
  split
  · exact h
  · split <;> exact h

theorem armTest_libOk (ch : Channel) {s : State} (h : LibOk ok s.library) : LibOk ok (armTest ch s).library := by
  unfold armTest
  dsimp only
  split
  · split
    · unfold armEntry
      dsimp only
      rw [(agreesButGrants_scalerRequest _ _ _ _).library]
      exact fetchArrival_slots _ _ (by simpa using h)
    · exact h
  · exact h

theorem endWith_libOk (ch : Channel) (o : JunctionOutcome) (lists : ChannelState → ChannelState) {s : State}
    (h : LibOk ok s.library) : LibOk ok (endWith ch o lists s).library := by
  unfold endWith
  split
  · exact h
  · refine armTest_libOk ch ?_
    have : LibOk ok (releaseClaim ch s).library := by rw [(agreesButGrants_releaseClaim ch s).library]; exact h
    exact this

theorem finishEnd_libOk (ch : Channel) (fe : FrameEnd) {s : State} (h : LibOk ok s.library) :
    LibOk ok (finishEnd ch fe s).library := by
  unfold finishEnd junctionEnd
  split
  · exact h
  · exact endWith_libOk _ _ _ h
  · exact endWith_libOk _ _ _ h

theorem junctionFrame_libOk (ch : Channel) (v : PromoValidity) {s : State} (h : LibOk ok s.library) :
    LibOk ok (junctionFrame ch v s).1.library := by
  unfold junctionFrame
  split
  · exact h
  · split
    · have h2 := startEvent_library (ok := ok) ch h
      split
      · rename_i he; rw [he] at h2; exact h2
      · rename_i he; rw [he] at h2; exact finishEnd_libOk _ _ h2
    · exact h
  · split
    · exact h
    · exact endWith_libOk _ _ _ h
    · exact endWith_libOk _ _ _ h

theorem engineWork_libOk (ch : Channel) {s : State} (h : LibOk ok s.library) :
    LibOk ok (engineWork ch s).library := by
  unfold engineWork
  dsimp only
  split
  · split
    · exact finishEnd_libOk _ _ (startEvent_library ch h)
    · exact h
  · exact finishEnd_libOk _ _ h

theorem jumpChannel_libOk (ch : Channel) {s : State} (h : LibOk ok s.library) :
    LibOk ok (jumpChannel s ch).library := by
  unfold jumpChannel jumpEngine
  refine armTest_libOk ch (s := jumpSchedule ch s) ?_
  rw [jumpSchedule_library]
  exact h

theorem jumps_keep (l : List Channel) {s : State} (h : LibOk ok s.library) (hfb : ok fallbackLayout) :
    LibOk ok (l.foldl jumpChannel s).library ∧ Chans ok s (l.foldl jumpChannel s) := by
  induction l generalizing s with
  | nil => exact ⟨h, .refl s⟩
  | cons ch l ih =>
    have h1 := jumpChannel_libOk ch h
    have h2 : LibOk ok (jumpSchedule ch s).library := by rw [jumpSchedule_library]; exact h
    have h3 : Chans ok s (jumpChannel s ch) :=
      ((chans_jumpSchedule ch s).trans (chans_armTest ch h2 hfb)).trans (chans_jumpEngine _ _)
    exact ⟨(ih h1).1, h3.trans (ih h1).2⟩

theorem setTime_keep (v : FrameValue) {s : State} (h : LibOk ok s.library) (hfb : ok fallbackLayout) :
    LibOk ok (setTimeBody v s).1.library ∧ Chans ok s (setTimeBody v s).1 := by
  unfold setTimeBody
  dsimp only
  have h1 : Chans ok s { s with ref := { s.ref with sfc := v }, freeCount := s.freeCount + 1 } := .of_eq rfl
  have h2 := jumps_keep (ok := ok) (noticeChannels s.freeCount)
    (s := { s with ref := { s.ref with sfc := v }, freeCount := s.freeCount + 1 }) h hfb
  have h3 := agreesButGrants_grantTest ((noticeChannels s.freeCount).foldl jumpChannel
    { s with ref := { s.ref with sfc := v }, freeCount := s.freeCount + 1 })
  refine ⟨?_, (h1.trans h2.2).trans h3.chans⟩
  rw [h3.library]
  exact h2.1

theorem storedSlot_slotsAfterReset (l : Library) (i : SlotIndex) (v : Vector (Option Template) 8) (q r : List Fetch)
    (o : Option InFlight) (b c : Bool) :
    ({ stored := l.slotsAfterReset, volatileSlots := v, operation := o, fetchQueue := q,
       setAside := r, storeFail := b, suspended := c } : Library).storedSlot i =
      (l.storedSlot i).afterPowerOn := by
  simp [Library.slotsAfterReset, Library.storedSlot, Vector.get_eq_getElem]

theorem LibOk.afterReset {l l' : Library} (h : LibOk ok l)
    (hs : ∀ i, l'.storedSlot i = (l.storedSlot i).afterPowerOn) (hv : l'.volatileSlots = Vector.replicate 8 none)
    (ho : l'.operation = none) : LibOk ok l' := by
  refine ⟨fun i t hi => ?_, fun j t hj => ?_, fun fl _ _ hfl => by simp [ho] at hfl⟩
  · rw [hs] at hi
    cases hst : l.storedSlot i <;> rw [hst] at hi <;> cases hi
    exact h.1 _ _ hst
  · simp [hv, Vector.get_eq_getElem] at hj

theorem startOperation_libOk (op : Operation) {s : State} (h : LibOk ok s.library)
    (hop : ∀ i t, op = .write i t → ok t) : LibOk ok (startOperation op s).library := by
  have ho : ∀ (fl : InFlight) i t, some ({ op := op, progress := 0 } : InFlight) = some fl → fl.op = .write i t → ok t :=
    fun fl i t hfl h' => by cases hfl; exact hop i t h'
  unfold startOperation
  dsimp only
  split
  · rename_i i _
    refine ⟨fun j t hj => ?_, h.2.1, ho⟩
    rw [storedSlot_setStored] at hj
    split at hj
    · cases hj
    · exact h.1 _ _ hj
  · exact ⟨h.1, h.2.1, ho⟩

theorem libraryWork_libOk {s : State} (h : LibOk ok s.library) : LibOk ok (libraryWork s).library := by
  unfold libraryWork
  dsimp only
  split
  · exact h
  · split
    · exact h
    · rename_i fl hfl
      split
      · unfold completeOperation
        dsimp only
        rw [serveAll_library]
        exact LibOk.applyOperation (ok := ok) (s := { s with library := { s.library with suspended := false } }) h
          fun i t hop => h.2.2 _ _ _ hfl hop
      · exact ⟨h.1, h.2.1, fun fl' i t hfl' hop => by cases hfl'; exact h.2.2 _ _ _ hfl hop⟩

/-- Every change keeps the library's templates and is, for each channel, a run of channel changes. -/
theorem Change.keep {s t : State} (hc : Change s t) (h : LibOk ok s.library) (hfb : ok fallbackLayout)
    (hnew : ∀ r t, templateOf r = some t → ok t) : LibOk ok t.library ∧ Chans ok s t := by
  cases hc with
  | raise ch f => exact ⟨h, chans_modChan (ChanChange.raise _ _).run⟩
  | record ch l => exact ⟨h, chans_modChan (ChanChange.record _ _).run⟩
  | append ch e => exact ⟨h, chans_modChan (ChanChange.append _ _).run⟩
  | clearMask ch m => exact ⟨h, chans_modChan (ChanChange.clearMask _ _).run⟩
  | readback ch r => exact ⟨h, chans_modChan (ChanChange.readback _ _).run⟩
  | disarm ch => exact ⟨h, chans_modChan (ChanChange.disarm _).run⟩
  | skip ch => exact ⟨h, chans_modChan (ChanChange.skip _).run⟩
  | addressing ch u a ha => exact ⟨h, chans_modChan (ChanChange.addressing _ u a ha).run⟩
  | armReset ch sc => exact ⟨h, chans_modChan (ChanChange.armReset _ _).run⟩
  | countArm ch => exact ⟨h, chans_modChan (ChanChange.countArm _).run⟩
  | countPacket ch hp => exact ⟨h, chans_modChan (ChanChange.countPacket _ hp).run⟩
  | newFrame ch => exact ⟨h, chans_modChan (ChanChange.newFrame _).run⟩
  | output ch f => exact ⟨h, chans_modChan (ChanChange.output _ _).run⟩
  | insert ch e start late l f he hl hd hf =>
    refine ⟨h, chans_modChan ?_⟩
    exact ((ChanChange.schedule (ok := ok) (s.chan ch) _).run).trans (run_raiseIf _ e.late .lateTaken)
  | keepEntries ch keep => exact ⟨h, chans_modChan (ChanChange.schedule _ _).run⟩
  | tolerance ch v => exact ⟨h, chans_modChan (ChanChange.schedule _ _).run⟩
  | startOperation op ho ht =>
    refine ⟨startOperation_libOk op h fun i t hop => ?_, .of_eq ?_⟩
    · obtain ⟨r, hr⟩ := ht i t hop
      exact hnew r t hr
    · unfold Machine.startOperation
      dsimp only
      split <;> rfl
  | volatileSlot j v ht =>
    refine ⟨⟨h.1, fun k t hk => ?_, h.2.2⟩, .of_eq rfl⟩
    rw [volatile_setVolatile] at hk
    split at hk
    · obtain ⟨r, hr⟩ := ht t hk
      exact hnew r t hr
    · exact h.2.1 _ _ hk
  | storeFail => exact ⟨h, .of_eq rfl⟩
  | libraryWork => exact ⟨libraryWork_libOk h, chans_libraryWork h hfb⟩
  | protection p hp => exact ⟨h, .of_eq rfl⟩
  | management m hm => exact ⟨h, .of_eq rfl⟩
  | openFrame =>
    refine ⟨h, Chans.trans (.of_eq rfl) (chans_mapChans
      (s := { s with ref := { s.ref with sfc := s.ref.sfc + 1 }, aligned := none }) fun ch => ?_)⟩
    exact (ChanChange.schedule (ok := ok) (s.chan ch) _).run.step (.output _ _)
  | reference r hr hs hcase => exact ⟨h, .of_eq rfl⟩
  | setTime v => exact setTime_keep v h hfb
  | grantTest => exact ⟨by rw [(agreesButGrants_grantTest s).library]; exact h, (agreesButGrants_grantTest s).chans⟩
  | armTest ch => exact ⟨armTest_libOk ch h, chans_armTest ch h hfb⟩
  | markEnd ch hst => exact ⟨h, chans_modChan (ChanChange.markEnd _ hst).run⟩
  | reloadWatch ch w hst hw => exact ⟨h, chans_modChan (ChanChange.reloadWatch _ w hst hw).run⟩
  | abort ch hst =>
    have h1 : Chans ok s (s.modChan ch (·.aborting)) := chans_modChan (ChanChange.aborting _ hst).run
    exact ⟨endWith_libOk _ _ _ h, h1.trans (chans_endWith _ _ _ (fun c l r hr => .emptied c l r hr) h hfb)⟩
  | openLoad ch b count f hcount hb => exact ⟨h, chans_modChan (ChanChange.openLoad _ b count f hcount hb).run⟩
  | appendItems ch x its hx hi => exact ⟨h, chans_modChan (ChanChange.appendItems _ x its hx hi).run⟩
  | dropLoad ch x hx => exact ⟨h, chans_modChan (ChanChange.dropLoad _ x hx).run⟩
  | countLoad ch => exact ⟨h, chans_modChan (ChanChange.countLoad _).run⟩
  | channelReset ch =>
    have h1 : Chans ok s (s.modChan ch fun c => c.resetBlocks c.parser.afterChannelReset) :=
      chans_modChan (ChanChange.channelReset _).run
    have ha := agreesButGrants_releaseClaim ch (s.modChan ch fun c => c.resetBlocks c.parser.afterChannelReset)
    refine ⟨?_, (h1.trans ha.chans).trans (chans_withdrawFetch _ _)⟩
    refine withdrawFetch_ok ch ?_
    rw [ha.library]
    exact h
  | partReset =>
    refine ⟨h.afterReset (fun i => storedSlot_slotsAfterReset _ _ _ _ _ _ _ _) rfl rfl, fun ch => ?_⟩
    unfold Machine.partReset
    rw [State.chan_mapChans]
    exact (ChanChange.partReset _ ch).run
  | powerOn a b =>
    refine ⟨h.afterReset (fun i => storedSlot_slotsAfterReset _ _ _ _ _ _ _ _) rfl rfl, fun ch => ?_⟩
    have : (Machine.powerOn a b s).chan ch = ChannelState.atPowerOn ch := by cases ch <;> rfl
    rw [this]
    exact (ChanChange.powerOn _ ch).run
  | junctionFrame ch v => exact ⟨junctionFrame_libOk ch v h, chans_junctionFrame ch v h hfb⟩
  | engineWork ch => exact ⟨engineWork_libOk ch h, chans_engineWork ch h hfb⟩
  | takeList ch v hst => exact ⟨h, chans_modChan (ChanChange.takeList _ v hst).run⟩
  | judge offered => exact ⟨h, .of_eq rfl⟩
  | compose ch rate inp view => exact ⟨h, chans_modChan (ChanChange.compose _ rate inp view).run⟩
  | status ch v =>
    refine ⟨h, chans_modChan ?_⟩
    exact (ChanChange.status (ok := ok) (s.chan ch)).run.step (.output _ _)

/-- Every step is, for each channel, a run of channel changes, and keeps the library's templates. -/
theorem step_channels {s t : State} (h : step s = .next t) (hl : LibOk ok s.library) (hfb : ok fallbackLayout)
    (hnew : ∀ r t, templateOf r = some t → ok t) : LibOk ok t.library ∧ Chans ok s t := by
  obtain ⟨rest, hr⟩ := changes_step h
  have h0 : LibOk ok ({ s with pending := rest } : State).library ∧ Chans ok s { s with pending := rest } :=
    ⟨hl, .of_eq rfl⟩
  refine Changes.keep (p := fun u => LibOk ok u.library ∧ Chans ok s u) (fun u w huw hu => ?_) hr h0
  have := huw.keep hu.1 hfb hnew
  exact ⟨this.1, hu.2.trans this.2⟩

end

end Sys2Proof.Machine
end

