-- ==== Sys2Proof/Tests/Slice0.lean ====
section
/-!
SUPPORT. Tests of the model: ill-formed operands refused, the manual's worked cases, one step of each command, and for
every obligation with hypotheses a state and operands that meet them. Expected values are the manual's, or hand
calculation from its rules.
-/

namespace Sys2Proof.Tests

open Sys2Proof.Machine

/-! ### States to test on -/

/-- The state an outcome leads to. -/
def after (o : Host.Outcome State Fault Refusal) : State :=
  match o with
  | .next t => t
  | .fault _ => .reset
  | .refused _ => .reset

/-- The state one command leads to. -/
def run (i : Instr) (s : State) : State := after (exec i s)

/-- The reset state with channel A changed. -/
def onA (f : ChannelState → ChannelState) : State := State.reset.modChan .a f

/-- The fields of an insert. -/
def fields : InsertFields := { tag := 7, slot := 0, firstBank := 0, credit := 0, endAction := 0, watch := none }

/-- An entry with a start frame. -/
def entry (start : FrameValue) : Entry :=
  { start := start, tag := 7, slot := 0, firstBank := .bank0, credit := 0, watch := none, endAction := .restore,
    late := false, lateness := 0 }

/-- A junction record on the fallback layout, fully granted. -/
def junction : JunctionRecord :=
  { start := 0, tag := 7, slot := 0, firstBank := .bank0, credit := 0, watch := none, endAction := .restore,
    lateness := 0, requested := 1, granted := 1, template := some fallbackLayout, fallbackUsed := false,
    itemsPlayed := 0, endCause := none, latenessTaken := 0 }

/-- The programme target of the fallback layout. -/
def quarterRect : Rect := { x := 960, y := 0, w := 960, h := 540 }

/-- Channel A armed. -/
def armedEngine (r : JunctionRecord) : Engine := { Engine.idle with state := .armed, record := some r }

/-- Channel A in the squeeze of the fallback layout. -/
def squeezeEngine (r : JunctionRecord) (k : Nat) : Engine :=
  { Engine.idle with
    state := .squeeze, record := some r, k := k, m := 25
    move := some
      { pgm := some { src := fullFrame, dst := quarterRect }, promo := { src := fullFrame, dst := fullFrame },
        length := 25, easing := .easeOut }
    pgmRect := some (moveRect k 25 .easeOut { src := fullFrame, dst := quarterRect })
    promoRect := some fullFrame, pgmScaled := true }

/-- Channel A in HELD on the fallback layout. -/
def heldEngine (r : JunctionRecord) : Engine :=
  { Engine.idle with
    state := .held, record := some r, pgmRect := some quarterRect, promoRect := some fullFrame, pgmScaled := true }

/-- Channel A in the restore of the fallback layout, at its last frame but one. -/
def releaseEngine (r : JunctionRecord) : Engine :=
  { Engine.idle with
    state := .release, record := some r, k := 24, m := 25
    move := some
      { pgm := some { src := quarterRect, dst := fullFrame }, promo := { src := fullFrame, dst := fullFrame },
        length := 25, easing := .easeIn }
    pgmRect := some quarterRect, promoRect := some fullFrame, pgmScaled := true }

/-- Channel A in a takeover, at its last frame but one. -/
def takeoverEngine (r : JunctionRecord) : Engine :=
  { Engine.idle with
    state := .takeover, record := some r, k := 24, m := 25
    move := some
      { pgm := none, promo := { src := fullFrame, dst := fullFrame }, length := 25, easing := .easeIn }
    pgmRect := none, promoRect := some fullFrame, pgmScaled := true }

/-- Channel A in PROMO_FULL. -/
def promoFullEngine (r : JunctionRecord) : Engine :=
  { Engine.idle with
    state := .promoFull, record := some r, pgmRect := none, promoRect := some fullFrame, pgmScaled := true }

/-- The pool with one scaler granted to channel A. -/
def poolA : Pool :=
  Pool.atReset.setRecord .a { state := .granted, requested := 1, start := 0, granted := 1 }

/-- The part with channel A's engine, the scaler of the fallback layout granted to it. -/
def withA (e : Engine) : State := { onA (·.withEngine e) with pool := poolA }

/-- An item of a number of frames. -/
def item (duration : Nat) : Item :=
  { tag := 1, source := .prm1, duration := duration, timing := .fixed, pgmAudio := none, prmAudio := none }

/-- Bank 0 playing two items, its current one with counters and a phase. -/
def playing (index duration : Nat) (gate : Option Nat) (ph : Phase) : PromoList :=
  { bank0 := { state := .playing, items := [item 50, item 60], chain := false }
    bank1 := .empty
    play := { bank := some .bank0, cursor := some ⟨index, ph, duration, gate⟩, started := 1 } }

/-- The part with channel A's engine and promo list. -/
def playA (e : Engine) (p : PromoList) : State := (withA e).modChan .a ({ · with promo := p })

/-- A carried template on the fallback layout's figures. -/
def rawTemplate : RawTemplate := { fallbackLayout.raw with label := none }

/-- A template of one scaler. -/
def template : Template := { fallbackLayout with label := none }

/-- The library with a WRITE of a template in flight on slot 3. -/
def writing (progress : Nat) : Library :=
  { Library.delivered with
    stored := Library.delivered.stored.set 2 .underOperation
    operation := some { op := .write 2 template, progress := progress } }

/-- A picture of no samples. -/
def blank : Picture := { width := 0, height := 0, luma := #[], cb := #[], cr := #[] }

/-- An input frame received in time at 25 frames a second. -/
def frame : InputFrame :=
  { offset := 0, received := true, pixels := 1920, lines := 1080, progressive := true, tenBit422 := true,
    rate := some .r25, picture := blank, pair1 := [(5, -5), (8388607, -8388608)], otherPairs := [], activeAnc := [] }

/-- The promo inputs of a frame. -/
def promos : PromoFrames := { prm1 := frame, prm2 := frame }

/-- The inputs of a frame of the nominal length. -/
def inputs : FrameInputs := { pgm := frame, promo := promos, length := 65536, long := false }

/-- A control packet with a payload, on a line. -/
def packet (line : Nat) (payload : List Nat) : AncPacket := { line := line, words := gosmaraWords 0x52 0x21 payload }

/-- The arrival of a packet that is not the first of its frame. -/
def arrival (p : AncPacket) : Arrival := { first := false, afterFrameEvent := false, valid := true, packet := p }

/-! ### Ill-formed operands are refused -/

theorem smoke_insert_fields :
    [{ fields with tag := 256 }, { fields with slot := 256 }, { fields with firstBank := 256 },
      { fields with credit := 65536 }, { fields with endAction := 256 }, { fields with watch := some 256 }].all
        (fun f => !(Instr.schedule .a .primary 0 f).wf && !(Instr.cue .a .primary 0 f).wf) = true ∧
      (Instr.cue .a .primary 65536 fields).wf = false := by decide

theorem smoke_one_byte :
    ([.setTolerance .a .primary 256, .openBank .a .primary 256 1 0, .openBank .a .primary 0 256 0,
      .openBank .a .primary 0 1 256, .readback .a .primary 256 0 0, .readback .a .primary 0 256 0,
      .readback .a .primary 0 0 256, .resetArm .a .primary 256, .reset .a .primary 256, .templateErase .a .primary 256,
      .lockSlot .a .primary 256, .unlockSlot .a .primary 256, .templateWrite .a .primary 256 rawTemplate]).all
        (fun i : Instr => !i.wf) = true := by decide

/-- A carried item that passes. -/
def rawItem : RawItem :=
  { tag := 1, source := 0, timing := 0, duration := 50, gateLimit := none, pgmAudio := none, prmAudio := none }

theorem smoke_items :
    [{ rawItem with tag := 256 }, { rawItem with source := 256 }, { rawItem with timing := 256 },
      { rawItem with duration := 65536 }, { rawItem with gateLimit := some 65536 },
      { rawItem with pgmAudio := some 256 }, { rawItem with prmAudio := some 256 }].all
        (fun i => !(Instr.items .a .primary [i]).wf) = true ∧
      (Instr.items .a .primary []).wf = false ∧ (Instr.items .a .primary (List.replicate 9 rawItem)).wf = false := by
  decide

theorem smoke_template :
    [{ rawTemplate with label := some [256] }, { rawTemplate with pgmTarget := ⟨65536, 0, 0, 0⟩ }, { rawTemplate with prmStart := ⟨0, 65536, 0, 0⟩ },
      { rawTemplate with prmTarget := ⟨0, 0, 65536, 0⟩ }, { rawTemplate with prmTarget := ⟨0, 0, 0, 65536⟩ },
      { rawTemplate with layering := 256 }, { rawTemplate with mIn := 256 }, { rawTemplate with mOut := 256 },
      { rawTemplate with easeIn := 256 }, { rawTemplate with easeOut := 256 },
      { rawTemplate with backing := ⟨65536, 0, 0⟩ }, { rawTemplate with backing := ⟨0, 65536, 0⟩ },
      { rawTemplate with borderColour := ⟨0, 0, 65536⟩ }, { rawTemplate with borderWidth := 256 },
      { rawTemplate with pgmAudio := 256 }, { rawTemplate with prmAudio := 256 }].all
        (fun t => !(Instr.templateWrite .a .primary 1 t).wf) = true := by decide

theorem smoke_label :
    (Instr.templateWrite .a .primary 1 { rawTemplate with label := some (List.replicate 208 0x20) }).wf = false := by
  have h : labelWf (some (List.replicate 208 0x20)) = false := by
    simp only [labelWf, List.length_replicate]
    rfl
  simp only [Instr.wf, RawTemplate.wf, h, Bool.false_and, Bool.and_false]

theorem smoke_protection_and_unit :
    ([⟨256, 0, 0, 0, 0⟩, ⟨0, 256, 0, 0, 0⟩, ⟨0, 0, 256, 0, 0⟩, ⟨0, 0, 0, 256, 0⟩, ⟨0, 0, 0, 0, 256⟩] :
        List RawProtection).all (fun r => !(Instr.protectSet .a .primary r).wf) = true ∧
      ([⟨256, 0, 1, 0, 0⟩, ⟨1, 256, 1, 0, 0⟩, ⟨1, 0, 256, 0, 0⟩, ⟨1, 0, 1, 256, 0⟩, ⟨1, 0, 1, 0, 256⟩] :
        List RawUnit).all (fun u => !(Instr.setUnit .a .primary u).wf) = true := by decide

theorem smoke_packet_line :
    (Instr.packetArrival .a (arrival { line := 0, words := [] })).wf = false ∧
      (Instr.packetArrival .a (arrival { line := 1126, words := [] })).wf = false ∧
      (Instr.packetArrival .a (arrival { line := 1125, words := [] })).wf = true := by decide

/-- A frame that makes no promise: not received. -/
def lostFrame : InputFrame := { frame with received := false }

theorem smoke_frames :
    let lost (n : Nat) : FrameInputs :=
      { pgm := lostFrame, promo := { prm1 := lostFrame, prm2 := lostFrame }, length := n, long := false }
    (lost 32767).wf = false ∧ (lost 32768).wf = true ∧ (lost 98304).wf = true ∧ (lost 98305).wf = false ∧
      InputFrame.wf { frame with lines := 0 } = false ∧ InputFrame.wf { frame with pixels := 0 } = false ∧
      InputFrame.wf { frame with pixels := 0, lines := 0, pair1 := [(0, 0), (8388608, 0)] } = false ∧
      InputFrame.wf { frame with pixels := 0, lines := 0 } = true ∧
      InputFrame.wf { lostFrame with activeAnc := [{ line := 41, words := [] }] } = false ∧
      PromoFrames.wf { prm1 := lostFrame, prm2 := frame } = false ∧
      (Instr.successorStart { channel := .a, offered := { prm1 := frame, prm2 := lostFrame } }).wf = false := by
  simp [FrameInputs.wf, PromoFrames.wf, Instr.wf, InputFrame.wf, lostFrame, frame, blank, Picture.wf, planeWf, sampleWf,
    AncPacket.wf, Config.lastBlankingLine, Config.frameTicks]

theorem smoke_pictures :
    Picture.wf { width := 2, height := 1, luma := #[#[64, 64]], cb := #[#[512]], cr := #[#[512]] } = true ∧
      Picture.wf { width := 2, height := 1, luma := #[#[64]], cb := #[#[512]], cr := #[#[512]] } = false ∧
      Picture.wf { width := 2, height := 1, luma := #[#[64, 64]], cb := #[], cr := #[#[512]] } = false ∧
      Picture.wf { width := 2, height := 1, luma := #[#[64, 64]], cb := #[#[512]], cr := #[#[1024]] } = false := by
  simp [Picture.wf, planeWf]

/-! ### The manual's worked values -/

/-- 03, "Worked values: the four easings". -/
theorem test_easings :
    ([.linear, .easeIn, .easeOut, .easeBoth].map fun c => [0, 5, 10, 15, 20].map fun k => eased c (progress k 20)) =
      [[0, 16384, 32768, 49152, 65536], [0, 4096, 16384, 36864, 65536], [0, 28672, 49152, 61440, 65536],
        [0, 8192, 32768, 57344, 65536]] := by decide

/-- 03, "Worked case: the fallback squeeze". -/
theorem test_fallback_squeeze :
    ([0, 1, 13, 24, 25].map fun k =>
      let r := moveRect k 25 .easeOut { src := fullFrame, dst := quarterRect }
      (r, stepH r, stepV r)) =
      [(⟨0, 0, 1920, 1080⟩, 65536, 65536), (⟨74, 0, 1844, 1038⟩, 68237, 68187),
        (⟨738, 0, 1180, 664⟩, 106634, 106594), (⟨958, 0, 962, 541⟩, 130799, 130829),
        (⟨960, 0, 960, 540⟩, 131072, 131072)] := by decide

/-- 03, "Worked case: the vertical clamp". -/
theorem test_vertical_clamp :
    moveRect 1 8 .linear { src := fullFrame, dst := ⟨960, 540, 960, 540⟩ } = ⟨0x78, 67, 1800, 1013⟩ := by decide

/-- 03, "Worked case: channel C". -/
theorem test_channel_c_squeeze :
    ([10, 25, 50].map fun k => moveRect k 50 .easeOut { src := fullFrame, dst := ⟨96, 60, 768, 432⟩ }) =
      [⟨34, 22, 1504, 847⟩, ⟨72, 45, 1056, 594⟩, ⟨96, 60, 768, 432⟩] := by decide

/-- 03, "Worked case: source positions at the window's edges". -/
theorem test_source_positions :
    ([1, 2, 3, 1503].map fun i => (i * 83662 / 65536, phaseOf (i * 83662))) = [(1, 4), (2, 8), (3, 13), (1918, 11)] ∧
      846 * 83564 / 65536 = 1078 ∧ phaseOf (846 * 83564) = 11 ∧ edgeIndex 1918 7 3 1920 = 1919 ∧
      edgeIndex 1 0 3 1920 = 0 := by decide

/-- 09, the table of R150. -/
theorem test_frame_order :
    ahead 10 4294967290 = true ∧ ahead 4294967290 10 = false ∧ ahead 2147483648 0 = false ∧
      ahead 0 2147483648 = false ∧ ahead 2147483647 0 = true ∧ ahead 500 500 = false := by decide

/-- R4: due entries first, the one furthest behind foremost, then those ahead by their distance, across the wrap. -/
theorem test_schedule_order :
    (orderEntries 500 ([501, 4294967294, 500, 3, 100000].map entry)).map Entry.start =
      [4294967294, 3, 500, 501, 100000] := by decide

/-- 07, "Worked table: protected sets". -/
theorem test_protected_sets :
    let set (m : ProtectMode) (d : Side) (z : Nat) (c : Bool) : List Nat :=
      let p := { LibraryProtection.delivered with record := ⟨m, d, z, c, .opened⟩ }
      ((List.finRange 32).filter p.protects).map (·.val + 1)
    set .range .low 0 false = [] ∧ set .range .low 0 true = List.range' 1 32 ∧ set .range .low 3 false = [1, 2, 3, 4] ∧
      set .range .low 3 true = List.range' 5 28 ∧ set .range .high 4 false = List.range' 25 8 ∧
      set .range .high 5 false = List.range' 17 16 ∧ set .range .high 6 true = [] ∧
      set .individual .low 3 false = List.range' 1 32 := by decide

/-- 10, the table of R163. -/
theorem test_unit_match :
    let settings (p m a : Byte) (all : Bool) : Addressing :=
      { primaryId := p, secondId := a, mask := m, allCall := all, consume := true }
    (settings 0x22 0xFF 0 true).matches 0x22 = some .primary ∧ (settings 0x22 0xFF 0 true).matches 0x23 = none ∧
      (settings 0x22 0xF0 0 true).matches 0x2D = some .primary ∧
      (settings 0x22 0xFF 0x40 true).matches 0x40 = some .secondary ∧
      (settings 0x40 0xF0 0x41 true).matches 0x41 = some .primary ∧
      (settings 0x22 0xFF 0 true).matches 0 = some .allCall ∧ (settings 0x22 0xFF 0 false).matches 0 = none ∧
      (settings 0x20 0x0F 0 false).matches 0 = none := by decide

/-- 08, "Worked cases: the mix", and the ramp of "Worked sequence: gains through a junction". -/
theorem test_mix_and_ramp :
    mixSample 6000000 7000000 32768 65536 = 8388607 ∧ mixSample (-5000001) 3 16384 0 = -1250001 ∧
      mixSample 8388607 (-8388608) 65536 65536 = -1 ∧ mixSample (-8000000) (-2000000) 65536 32768 = -8388608 ∧
      mixSample 1234567 4000000 65536 0 = 1234567 ∧ rampAt 65536 32768 1 = 65504 ∧ rampAt 65536 32768 512 = 49152 ∧
      rampAt 0 65536 3 = 192 ∧ rampAt 32768 16384 959 = 17424 ∧ rampAt 17424 65536 1 = 17470 := by decide

/-- 08, "Worked case: one frame painted". -/
theorem test_painted_points :
    let view (l : Layering) : FrameView :=
      { state := .squeeze, pgm := some ⟨72, 45, 1056, 594⟩, promo := some ⟨864, 540, 1056, 540⟩, item := none
        look := { Look.outside with layering := some l, borderWidth := 6 } }
    let points : List (Nat × Nat) := [(1000, 600), (1130, 600), (1130, 300), (70, 40), (10, 10), (1500, 900)]
    points.map (fun p => paintAt (view .programmeOnTop) p.1 p.2) =
        [.programme, .border, .border, .border, .backing, .promo] ∧
      points.map (fun p => paintAt (view .promoOnTop) p.1 p.2) =
        [.promo, .promo, .border, .border, .backing, .promo] := by decide

/-- 06, the verdicts after R102. -/
theorem test_template_verdicts :
    ([{ rawTemplate with pgmTarget := ⟨961, 0, 958, 540⟩ }, { rawTemplate with prmTarget := ⟨1000, 600, 960, 540⟩ },
        { rawTemplate with pgmTarget := ⟨0, 0, 190, 108⟩ }, { rawTemplate with pgmTarget := ⟨1728, 972, 192, 108⟩ },
        { rawTemplate with prmStart := ⟨0, 0, 1920, 107⟩ }, { rawTemplate with borderWidth := 18 },
        { rawTemplate with backing := ⟨941, 512, 512⟩ },
        { rawTemplate with mIn := 250, mOut := 0, borderWidth := 6 }].map fun r => (templateOf r).isSome) =
      [false, false, false, true, false, false, false, true] := by decide

/-- R180: word 1 of a control packet carries 52h with bits 8 and 9 after its three ones, and the checksum word of END
to unit 22h (data count 2, bytes 22h and 06h): bits 0 to 8 of 102h, 222h and 206h sum to 12Ah. -/
theorem test_end_packet_words :
    gosmaraWords 0x52 0x21 (Command.endHold.payload 0x22) = [0x152, 0x221, 0x102, 0x222, 0x206, 0x12A] ∧
      parseCommand 0x06 [] = some .endHold ∧ parseCommand 0x06 [0] = none := by decide

/-- R181, a SCHEDULE written out: start 00000064h, tag 7, slot 34, bank 1, credit 0258h, TAKEOVER, watch 50. -/
theorem test_schedule_payload :
    parseCommand 0x01 [0, 0, 0, 0x64, 7, 34, 1, 2, 0x58, 1, 50] =
      some (.schedule 100 { tag := 7, slot := 34, firstBank := 1, credit := 600, endAction := 1, watch := some 50 }) ∧
      parseCommand 0x0A [1, 9, 1, 1, 3, 0, 40, 0, 80, 2] =
        some (.items [{ rawItem with tag := 9, source := 1, timing := 1, duration := 40, gateLimit := some 80, pgmAudio := some 2 }]) ∧
      parseCommand 0x0A [0] = none ∧ parseCommand 0x2A [] = none := by decide

/-- 11, "Worked sequence: one readback": a template with a label of 7 characters reads back as 53 bytes, and a packet
without a readback has data count 107. -/
theorem test_readback_length :
    (Readback.template 34
      (.valid { template with label := some [0x54, 0x4F, 0x50, 0x48, 0x4F, 0x55, 0x52] })).content.length = 53 ∧
      (statusPayload .a ⟨true, true, true⟩ .reset).length = 107 := by decide

/-- R184 on the reset state of channel B: its unit ID, its letter, SFC 0, REF_LOST at rate 25 with PGM valid alone. -/
theorem test_status_payload_head :
    (statusPayload .b ⟨true, false, false⟩ .reset).take 7 = [0x22, 1, 0, 0, 0, 0, 9] := by decide

/-! ### A state in the middle of its work, sound in every respect -/

/-- A record whose template is still AWAITED. -/
def awaiting (slot : Nat) : JunctionRecord :=
  { junction with slot := slot, start := 10, template := none, requested := 1, granted := 1 }

/-- Channel A in a squeeze with bank 0 playing, B armed on slot 3 with its fetch set aside, C armed on slot 5 with its
fetch queued, D idle with an open load and two entries, and a WRITE of slot 3 in flight. -/
def busy : State :=
  let s : State :=
    { State.reset with
      library :=
        { writing 4 with
          fetchQueue := [{ channel := .c, slot := 5 }], setAside := [{ channel := .b, slot := 3 }] }
      pool :=
        ((poolA.setRecord .b { state := .granted, requested := 1, start := 10, granted := 1 }).setRecord .c
          { state := .granted, requested := 1, start := 10, granted := 1 })
      pending := [.endHold .a .primary] }
  (((s.modChan .a fun c => { c.withEngine (squeezeEngine junction 3) with promo := playing 0 46 none .running }).modChan
        .b fun c => { c.withEngine (armedEngine (awaiting 3)) with fetch := .setAside }).modChan
      .c fun c => { c.withEngine (armedEngine (awaiting 5)) with fetch := .queued }).modChan
    .d fun c =>
      { c with
        schedule := { c.schedule with entries := [entry 20, entry 30] }
        promo := { c.promo with bank1 := { state := .loading, items := [item 5], chain := true } }
        parser := { c.parser with context := some { bank := .bank1, remaining := 2, countdown := 249 } } }

/-- The template of slot 0 and of the WRITE in flight has drawable rectangles. -/
theorem template_sound : template.Sound ∧ fallbackLayout.Sound := by
  simp only [Template.Sound, Rect.Drawable]
  decide

theorem busy_operation : busy.library.OperationSound := by
  refine ⟨by decide, fun fl h => ?_⟩
  obtain rfl : fl = _ := (Option.some.inj h).symm
  decide

theorem busy_templates : busy.library.TemplatesSound := by
  refine ⟨fun i t h => ?_, fun j t h => ?_, fun fl i t h h' => ?_⟩
  · have hs : ∀ i, busy.library.storedSlot i = .blank ∨ busy.library.storedSlot i = .underOperation := by decide
    rcases hs i with hi | hi <;> rw [hi] at h <;> cases h
  · have hv : ∀ j, busy.library.volatileSlots.get j = none := by decide
    rw [hv j] at h
    cases h
  · obtain rfl : fl = _ := (Option.some.inj h).symm
    obtain rfl : template = t := by cases h'; rfl
    exact template_sound.1

theorem busy_pool : busy.QueueSound := by
  have one : 1 ≤ 2 ∧ 1 ≤ 1 := by decide
  exact ⟨⟨⟨by decide, channel_forall.mpr ⟨one, one, one, rfl, rfl⟩, by decide, channel_forall.mpr (by decide)⟩,
    channel_forall.mpr (by decide)⟩, by decide, fun ch h => by cases h⟩

theorem busy_schedules : busy.SchedulesSound := by
  refine channel_forall.mpr ⟨?_, ?_, ?_, ?_⟩ <;> refine ⟨by decide, by decide, ?_, by decide⟩ <;> intro e he
  · cases he
  · cases he
  · cases he
  · have he' : e = entry 20 ∨ e = entry 30 := by simpa using (show e ∈ [entry 20, entry 30] from he)
    rcases he' with rfl | rfl <;> exact ⟨by decide, fun w hw => (by cases hw), by decide⟩

theorem busy_tallies : busy.TalliesSound := channel_forall.mpr (by decide)

theorem busy_banks : busy.BanksSound := by
  have two : ∀ {p : BankId → Prop}, p .bank0 → p .bank1 → ∀ b, p b := fun h h' b => by cases b <;> assumption
  refine channel_forall.mpr ⟨?_, ?_, ?_, ?_⟩ <;>
    refine ⟨two ⟨by decide, by decide, by decide⟩ ⟨by decide, by decide, by decide⟩, ?_, ?_⟩
  · exact two (by decide) (by decide)
  · exact ⟨two (by decide) (by decide), by decide, by decide⟩
  · exact two (by decide) (by decide)
  · exact two (by decide) (by decide)
  · exact two (by decide) (by decide)
  · exact two (by decide) (by decide)
  · exact ⟨two (by decide) (by decide), by decide, by decide, by decide, by decide⟩
  · exact two (by decide) (by decide)

theorem busy_registers : busy.ParsersSound ∧ busy.ComposersSound ∧ busy.ReportersSound := by
  have settled : (Gain.settled 65536).Sound ∧ (Gain.settled 0).Sound :=
    ⟨⟨by decide, by decide, by decide, fun n h => by cases h⟩, ⟨by decide, by decide, by decide, fun n h => by cases h⟩⟩
  refine ⟨channel_forall.mpr ⟨?_, ?_, ?_, ?_⟩, fun ch => ?_, fun ch => ?_⟩
  · exact ⟨by decide, by decide, by decide, by decide, by decide, fun a h => by cases h⟩
  · exact ⟨by decide, by decide, by decide, by decide, by decide, fun a h => by cases h⟩
  · exact ⟨by decide, by decide, by decide, by decide, by decide, fun a h => by cases h⟩
  · exact ⟨by decide, by decide, by decide, by decide, by decide, fun a h => by cases h⟩
  · cases ch <;> exact ⟨settled.1, settled.2, by decide, by decide⟩
  · cases ch <;> exact ⟨by decide, by decide⟩

theorem busy_reference : busy.ref.Sound ∧ busy.SomeManager := ⟨⟨rfl, by decide⟩, .a, by decide⟩

theorem busy_fetches : busy.FetchesSound := by
  refine ⟨by decide, channel_forall.mpr ⟨?_, ?_, ?_, ?_⟩, by decide, by decide, by decide⟩
  · exact ⟨by decide, by decide, by decide, by decide⟩
  · exact ⟨by decide, by decide, by decide, fun _ => ⟨by decide, _, rfl, rfl⟩⟩
  · exact ⟨by decide, by decide, by decide, fun _ => ⟨by decide, _, rfl, rfl⟩⟩
  · exact ⟨by decide, by decide, by decide, by decide⟩

theorem busy_windows : busy.WindowsSound := by
  have some_eq : ∀ {r x : Rect}, some r = some x → r = x := fun h => Option.some.inj h
  have rects : ∀ r : Rect, r = fullFrame ∨ r = quarterRect ∨
      r = moveRect 3 25 .easeOut { src := fullFrame, dst := quarterRect } → Rect.Drawable r := by
    rintro r (rfl | rfl | rfl) <;> (simp only [Rect.Drawable]; decide)
  refine ⟨busy_templates, channel_forall.mpr ⟨⟨?_, ⟨fun r h => ?_, fun r h => ?_⟩, template_sound.2⟩,
    ⟨⟨_, rfl⟩, ⟨fun r h => ?_, fun r h => by cases h⟩, template_sound.2⟩,
    ⟨⟨_, rfl⟩, ⟨fun r h => ?_, fun r h => by cases h⟩, template_sound.2⟩,
    ⟨rfl, ⟨fun r h => ?_, fun r h => by cases h⟩, template_sound.2⟩⟩⟩
  · exact ⟨rfl, ⟨_, rfl, rfl, by decide, by decide, ⟨rects _ (.inl rfl), rects _ (.inl rfl)⟩,
      fun x h => by cases h; exact ⟨rects _ (.inl rfl), rects _ (.inr (.inl rfl))⟩, rfl⟩, rfl, rfl, rfl⟩
  · exact rects r (.inr (.inr (some_eq h).symm))
  · exact rects r (.inl (some_eq h).symm)
  · exact rects r (.inl (some_eq h).symm)
  · exact rects r (.inl (some_eq h).symm)
  · exact rects r (.inl (some_eq h).symm)

/-- Every premise of the statements that every step keeps something holds of one state with a command waiting, and its
step answers a next state. -/
theorem witness_StepKeeps : busy.Sound ∧ ∃ t, step busy = .next t :=
  ⟨⟨busy_reference.1, busy_pool, busy_schedules, busy_windows, busy_tallies, busy_banks, busy_registers.1,
    busy_reference.2, busy_registers.2.1, busy_registers.2.2, busy_operation, busy_fetches⟩, _, rfl⟩

/-! ### Witnesses: packets -/

theorem witness_EncodedCommandsParse :
    ((Command.schedule 4294967295 { fields with tag := 255, slot := 255, credit := 65535, watch := some 255 }).instr .a
        .primary).wf = true ∧
      ((Command.templateWrite 255 { rawTemplate with label := some [0x41] }).instr .a .primary).wf = true ∧
      ((Command.items (List.replicate 8 { rawItem with gateLimit := some 65535, pgmAudio := some 255 })).instr .a
        .primary).wf = true := by decide

/-- Channel A's parser with seven packets counted. -/
def counted (n : Nat) (skip : Bool) : State :=
  onA fun c => { c with parser := { c.parser with packetCount := n, skip := skip } }

/-- The eighth packet of a frame on the last line of the vertical blanking is END to unit 21h: a channel that is IDLE
answers WRONG_STATE, and the packet is removed. -/
theorem witness_PacketsRunTheirCommand :
    let arr := arrival (packet 41 (Command.endHold.payload 0x21))
    let s := counted 7 false
    (Command.endHold.instr .a .primary).wf = true ∧ arr.valid = true ∧ inBlanking arr.packet = true ∧
      arr.packet.words = gosmaraWords 0x52 0x21 (Command.endHold.payload 0x21) ∧
      (s.chan .a).parser.addressing.matches 0x21 = some .primary ∧
      ((s.chan .a).parser.packetCount < 8 ∧ (s.chan .a).parser.skip = false) ∧
      ((run (.packetArrival .a arr) s).chan .a).reporter.results = [⟨0x06, .wrongState, .primary⟩] ∧
      ((run (.packetArrival .a arr) s).chan .a).output.passed = [] ∧
      ((run (.packetArrival .a arr) s).chan .a).parser.packetCount = 8 := by decide

theorem witness_PacketStagesInOrder_frame :
    ({ arrival (packet 12 []) with valid := false } : Arrival).valid = false ∧
      inBlanking (packet 42 []) = false ∧ inBlanking (packet 41 []) = true ∧ inBlanking (packet 1 []) = true := by decide

theorem witness_PacketStagesInOrder_packet :
    classify (gosmaraWords 0x41 0x05 []) ≠ .control ∧ classify (packet 9 []).words = .control ∧
      8 ≤ ((counted 8 false).chan .a).parser.packetCount ∧ ((counted 7 true).chan .a).parser.packetCount < 8 ∧
      checkedPayload (gosmaraWords 0x52 0x21 [0x21, 0x06]).dropLast = none ∧
      checkedPayload (packet 9 []).words = some [] ∧ checkedPayload (packet 9 [0x22, 6]).words = some [0x22, 6] ∧
      ((counted 7 true).chan .a).parser.addressing.matches 0x22 = none ∧
      ((counted 7 true).chan .a).parser.addressing.matches 0 = some .allCall ∧
      ((counted 7 true).chan .a).parser.skip = true ∧ ((counted 0 false).chan .a).parser.skip = false ∧
      checkedPayload (packet 9 [0x21]).words = some [0x21] ∧ parseCommand 0x2A [] = none := by decide

/-- The first packet of a frame finds the count at 0 and the skip flag clear, even where nine were counted before. -/
theorem witness_PacketStagesInOrder_first :
    let arr := { arrival (packet 9 [0x21, 0x2A]) with first := true }
    let s := run (.packetArrival .a arr) (counted 8 true)
    arr.valid = true ∧ inBlanking arr.packet = true ∧ classify arr.packet.words = .control ∧
      (s.chan .a).parser.packetCount = 1 ∧ (s.chan .a).reporter.results = [⟨0x2A, .badCommand, .primary⟩] ∧
      (s.chan .a).reporter.flag .packetLimit = false := by decide

/-- A kind that is not known is answered BAD_COMMAND and sets the skip flag; the ninth packet sets PACKET_LIMIT. -/
theorem test_packet_refused :
    let s := run (.packetArrival .a (arrival (packet 9 [0x21, 0x2A]))) .reset
    let t := run (.packetArrival .a (arrival (packet 9 [0x21, 0x06]))) (counted 8 false)
    (s.chan .a).reporter.results = [⟨0x2A, .badCommand, .primary⟩] ∧ (s.chan .a).parser.skip = true ∧
      (t.chan .a).reporter.flag .packetLimit = true ∧ (t.chan .a).reporter.results = [] ∧
      (t.chan .a).output.passed.length = 1 := by decide

/-! ### Witnesses: what no command can change -/

/-- The frozen part with a PROTECT_SET about to commit. -/
def frozen : State :=
  { State.reset with
    protection := { LibraryProtection.delivered with guardState := .frozen }
    library :=
      { Library.delivered with
        operation := some { op := .protectSet { Protection.delivered with sizeCode := 6 }, progress := 1 } } }

theorem witness_FrozenSettingsStayClosed :
    frozen.protection.guardState = .frozen ∧ (∀ a b, Instr.libraryFrameEvent ≠ .powerOn a b) ∧
      (∃ t, exec .libraryFrameEvent frozen = .next t) ∧
      (run .libraryFrameEvent frozen).protection.record.sizeCode = 6 ∧
      (run .libraryFrameEvent frozen).protection.guardState = .frozen :=
  ⟨rfl, fun _ _ h => (by cases h), ⟨_, rfl⟩, by decide, by decide⟩

theorem witness_ChannelCommandsStayInTheirChannel :
    Command.abort.ofChannel = true ∧ (Command.reset 0).ofChannel = true ∧ (Command.reset 2).ofChannel = true ∧
      ∃ t, exec (Command.abort.instr .a .primary) busy = .next t := ⟨rfl, rfl, rfl, _, rfl⟩

theorem witness_CommonCommandsNeedManagement :
    Command.freeze.common = true ∧ State.reset.management.get .b = false ∧
      ((run (.freeze .b .secondary) .reset).chan .b).reporter.results = [⟨0x28, .notManager, .secondary⟩] ∧
      (run (.freeze .b .secondary) .reset).protection.guardState = .opened := by decide

/-- The part in the middle of its work with slots 1 and 2 protected, slot 3 being written. -/
def guardedBusy : State :=
  { busy with
    protection := { LibraryProtection.delivered with record := { Protection.delivered with sizeCode := 2 } } }

theorem witness_ProtectedSlotsKeepTheirContent :
    guardedBusy.library.OperationSound ∧ guardedBusy.protection.protects 0 = true ∧
      guardedBusy.protection.protects 1 = true ∧ guardedBusy.library.storedSlot 1 ≠ .underOperation ∧
      ∃ t, exec .libraryFrameEvent guardedBusy = .next t := ⟨busy_operation, by decide, by decide, by decide, _, rfl⟩

/-! ### Witnesses: the Junction Schedule -/

/-- The reset state at SFC 100 with entries in channel A's schedule. -/
def scheduled (starts : List FrameValue) : State :=
  let s := onA fun c => { c with schedule := { c.schedule with entries := starts.map entry } }
  { s with ref := { s.ref with sfc := 100 } }

/-- Fifteen entries at frames 200 to 214. -/
def fifteen : State :=
  scheduled [200, 201, 202, 203, 204, 205, 206, 207, 208, 209, 210, 211, 212, 213, 214]

theorem witness_InsertsAreAccepted :
    let f := { fields with slot := 40, firstBank := 1, endAction := 1, watch := some 255 }
    f.slot ≤ 40 ∧ f.firstBank = BankId.bank1.code ∧ f.endAction = EndAction.takeover.code ∧ f.watch ≠ some 0 ∧
      (fifteen.chan .a).engine.state ≠ .armed ∧
      ((fifteen.chan .a).schedule.entries.all fun e =>
        decide (e.start ≠ 101 ∧ e.start ≠ 100 ∧ e.start ≠ 98 ∧ e.start ≠ 1100)) = true ∧
      (fifteen.chan .a).schedule.entries.length < 16 ∧ ahead 101 fifteen.ref.sfc = true ∧
      ahead 98 fifteen.ref.sfc = false ∧ (98 : FrameValue) ≠ fifteen.ref.sfc ∧
      (fifteen.ref.sfc - 98).toNat ≤ (fifteen.chan .a).schedule.tolerance ∧
      (1100 : FrameValue) = fifteen.ref.sfc + BitVec.ofNat 32 1000 := by decide

/-- A SCHEDULE two frames late sets LATE_TAKEN, is answered OK and arms at once. -/
theorem test_schedule_late :
    let s := run (.schedule .a .primary 98 fields) (scheduled [])
    (s.chan .a).reporter.results = [⟨0x01, .ok, .primary⟩] ∧ (s.chan .a).reporter.flag .lateTaken = true ∧
      (s.chan .a).engine.state = .armed ∧ ((s.chan .a).engine.record.map (·.lateness)) = some 2 := by decide

/-- A CUE ten frames on is on time and arms; one thousand frames on waits in the schedule. -/
theorem test_cue :
    ((run (.cue .a .primary 10 fields) (scheduled [])).chan .a).engine.state = .armed ∧
      ((run (.cue .a .primary 1000 fields) (scheduled [])).chan .a).schedule.entries.map Entry.start = [1100] := by
  decide

/-- Channel A armed for frame 105 at SFC 100. -/
def armedAt105 : State :=
  let s := withA (armedEngine { junction with start := 105 })
  { s with ref := { s.ref with sfc := 100 } }

theorem witness_InsertsAreRefusedInOrder_fields :
    InsertFieldsBad { fields with slot := 41 } ∧ InsertFieldsBad { fields with firstBank := 2 } ∧
      InsertFieldsBad { fields with endAction := 2 } ∧ InsertFieldsBad { fields with watch := some 0 } ∧
      ¬ InsertFieldsBad { fields with slot := 40, watch := some 255 } := by
  simp only [InsertFieldsBad]
  decide

theorem witness_InsertsAreRefusedInOrder_tests :
    ahead 97 (scheduled []).ref.sfc = false ∧ (97 : FrameValue) ≠ (scheduled []).ref.sfc ∧
      ((scheduled []).chan .a).schedule.tolerance < ((scheduled []).ref.sfc - 97).toNat ∧
      MeetsArmedStart (armedAt105.chan .a) 105 ∧ ¬ MeetsArmedStart (armedAt105.chan .a) 106 ∧
      (∃ e ∈ ((scheduled [200]).chan .a).schedule.entries, e.start = 200) ∧
      16 ≤ ((scheduled ((List.range 16).map fun i => BitVec.ofNat 32 (200 + i))).chan .a).schedule.entries.length ∧
      (105 : FrameValue) = armedAt105.ref.sfc + BitVec.ofNat 32 5 := by
  refine ⟨by decide, by decide, by decide, ⟨rfl, _, rfl, by decide⟩, fun h => ?_, ⟨_, List.mem_cons_self, rfl⟩,
    by decide, by decide⟩
  obtain ⟨_, r, hr, h⟩ := h
  cases hr
  exact absurd h (by decide)

theorem witness_ScheduleIsEdited :
    (∃ e ∈ ((scheduled [200, 300]).chan .a).schedule.entries, e.start = 300) ∧
      (∀ e ∈ ((scheduled [200, 300]).chan .a).schedule.entries, e.start ≠ 301) ∧
      ((run (.delete .a .primary 300) (scheduled [200, 300])).chan .a).schedule.entries.map Entry.start = [200] ∧
      ((run (.clearSchedule .a .primary) (scheduled [200, 300])).chan .a).schedule.entries = [] ∧
      ((run (.setTolerance .a .primary 5) .reset).chan .a).schedule.tolerance = 4 := by decide

/-- An entry twelve frames ahead arms, and one thirteen frames ahead does not (R14). -/
theorem witness_ArmTakesTheFirstEntry :
    ((scheduled [112]).chan .a).engine.state = .idle ∧ ((scheduled [112]).chan .a).schedule.entries = entry 112 :: [] ∧
      ((entry 112).start - (scheduled [112]).ref.sfc).toNat ≤ 12 ∧ ahead (entry 100).start (scheduled [100]).ref.sfc = false ∧
      ((run (.arm .a) (scheduled [112])).chan .a).engine.state = .armed ∧
      ((run (.arm .a) (scheduled [113])).chan .a).engine.state = .idle := by decide

/-- The arming engine's fetch meets an operation on its slot, one on another slot, and none. -/
theorem witness_ArmTakesTheFirstEntry_fetch :
    (writing 0).operatesOn 3 = true ∧ (writing 0).operatesOn 4 = false ∧ (writing 0).operation ≠ none ∧
      ((run (.arm .a) { scheduled [112] with library := writing 0 }).chan .a).fetch = .queued ∧
      ((run (.arm .a) (scheduled [112])).chan .a).fetch = .served := by decide

/-- A request arrives at an empty queue: it is granted when it fits the free scalers and waits when it does not (R92). -/
theorem witness_ArmTakesTheFirstEntry_pool :
    let held (n : Nat) : Request := { state := .granted, requested := 2, start := 0, granted := n }
    let s (n : Nat) : State :=
      { scheduled [112] with
        pool := { records := { a := Request.none, b := held 2, c := held 2, d := held n }, queue := [] } }
    (s 1).pool.queue = [] ∧ ((s 1).pool.records.get .a).granted = 0 ∧ (s 1).library.need 0 = 1 ∧
      (run (.arm .a) (s 1)).pool.records.a.state = .granted ∧ (run (.arm .a) (s 2)).pool.records.a.state = .waiting ∧
      (run (.arm .a) (s 2)).pool.queue = [.a] := by decide

/-- Entries for channel A's schedule while it is in HELD, at SFC 100. -/
def heldWith (starts : List FrameValue) : State :=
  let s := (withA (heldEngine junction)).modChan .a fun c =>
    { c with schedule := { c.schedule with entries := starts.map entry } }
  { s with ref := { s.ref with sfc := 100 } }

theorem witness_MissedBusyDropsDueEntries :
    ((heldWith [99, 100, 101]).chan .a).engine.state ≠ .idle ∧
      (((heldWith [99, 100, 101]).chan .a).schedule.entries.filter fun e => !ahead e.start 100) ≠ [] ∧
      ((run (.missedBusy .a) (heldWith [99, 100, 101])).chan .a).schedule.entries.map Entry.start = [101] ∧
      ((run (.missedBusy .a) (heldWith [99, 100, 101])).chan .a).reporter.last.map (·.start) = some 100 := by decide

/-- Channel frame events of an IDLE engine with an entry near enough and with one due, and of an ARMED one ahead of its
start: the first arms, the second arms the due entry and sweeps the next. -/
theorem witness_MissedBusyDropsDueEntries_frame :
    ((scheduled [112]).chan .a).engine.state = .idle ∧ (armedAt105.chan .a).engine.state = .armed ∧
      (armedAt105.chan .a).engine.record = some { junction with start := 105 } ∧
      ahead ({ junction with start := 105 } : JunctionRecord).start armedAt105.ref.sfc = true ∧
      ((heldWith [101]).chan .a).engine.state ≠ .idle ∧
      (((heldWith [101]).chan .a).schedule.entries.filter fun e => !ahead e.start 100) = [] ∧
      ((run (.channelFrameEvent .a inputs) (scheduled [112])).chan .a).engine.state = .armed ∧
      ((run (.channelFrameEvent .a inputs) (scheduled [98, 99])).chan .a).engine.state = .armed ∧
      ((run (.channelFrameEvent .a inputs) (scheduled [98, 99])).chan .a).reporter.last.map (·.start) = some 99 ∧
      ((run (.channelFrameEvent .a inputs) armedAt105).chan .a).engine.state = .armed := by decide

theorem witness_MissedBusyDropsDueEntries_sound :
    ((scheduled [98, 99]).chan .a).schedule.Sound (scheduled [98, 99]).ref.sfc := by
  refine ⟨by decide, by decide, fun e he => ?_, by decide⟩
  have he' : e = entry 98 ∨ e = entry 99 := by simpa using (show e ∈ [entry 98, entry 99] from he)
  rcases he' with rfl | rfl <;> exact ⟨by decide, fun w hw => (by cases hw), by decide⟩

/-! ### Witnesses: the Junction Engine -/

theorem witness_EndAndExtendAnswerByState :
    ((withA (squeezeEngine junction 3)).chan .a).engine.state = .squeeze ∧
      ((withA (takeoverEngine junction)).chan .a).engine.state = .takeover ∧
      ((withA (heldEngine { junction with watch := some 250 })).chan .a).engine.state = .held ∧
      ((withA (heldEngine { junction with watch := some 250 })).chan .a).engine.record.bind (·.watch) = some 250 ∧
      ((withA (heldEngine junction)).chan .a).engine.record.bind (·.watch) = none ∧
      ((run (.endHold .a .primary) (withA (heldEngine junction))).chan .a).engine.marker = some .endCommand ∧
      ((run (.extend .a .primary) (withA (heldEngine { junction with watch := some 250 }))).chan .a).engine.watch =
        some 250 := by decide

theorem witness_AbortWithdrawsTheJunction :
    (State.reset.chan .a).engine.state = .idle ∧ ((withA (heldEngine junction)).chan .a).engine.state ≠ .idle ∧
      ((withA (heldEngine junction)).chan .a).engine.record = some junction ∧
      (run (.abort .a .primary) (withA (heldEngine junction))).pool = Pool.atReset ∧
      ((run (.abort .a .primary) (withA (heldEngine junction))).chan .a).reporter.last.map (·.outcome) =
        some .aborted := by decide

/-- Channel A armed for the present frame with a READY bank. -/
def dueA (r : JunctionRecord) : State :=
  playA (armedEngine r)
    { bank0 := { state := .ready, items := [item 50], chain := false }, bank1 := .empty, play := .none }

theorem witness_StartEventBeginsTheJunction :
    let s := dueA junction
    let late := dueA { junction with lateness := 4 }
    (s.chan .a).engine.state = .armed ∧ (s.chan .a).engine.record = some junction ∧
      ahead junction.start s.ref.sfc = false ∧ s.pool.queue = [] ∧ (s.pool.records.get .a).state = .granted ∧
      (s.pool.records.get .a).granted = 1 ∧
      ¬ ((1 : Nat) = 0 ∧ (junction.requested ≠ 0 ∨ fallbackLayout.pgmTarget ≠ fullFrame)) ∧
      (s.chan .a).promo.play.bank = none ∧ ((run (.startEvent .a) s).chan .a).engine.state = .squeeze ∧
      ((run (.startEvent .a) s).chan .a).promo.bank0.state = .playing ∧
      ((run (.startEvent .a) late).chan .a).engine.k = 4 := by decide

/-- Channel A armed and due, its request for two scalers waiting ahead of channel B's with a number granted elsewhere. -/
def claiming (t : Template) (granted : Nat) : State :=
  { dueA { junction with requested := 2, granted := 0, template := some t } with
    pool :=
      { records :=
          { a := { state := .waiting, requested := 2, start := 0, granted := 0 }
            b := { state := .waiting, requested := 2, start := 5, granted := 0 }
            c := { state := .granted, requested := 2, start := 0, granted := 2 }
            d := { state := .granted, requested := 2, start := 0, granted := granted } }
        queue := [.a, .b] } }

/-- The manual's degraded start (R28, R93): a claim with a waiting request takes the one free scaler of the two it needs,
SCALER_SHORT is set and the promo window is the full frame; with two free it goes on as planned, and channel B waits. -/
theorem witness_StartEventBeginsTheJunction_waiting :
    let t := { template with prmTarget := ⟨864, 540, 1056, 540⟩ }
    let s := claiming t 2
    let w := (run (.startEvent .a) { s with pool := s.pool.setRecord .c { s.pool.records.c with granted := 1 } })
    (s.pool.records.get .a).state = .waiting ∧ s.pool.free = 2 ∧ 2 = min (s.pool.records.get .a).requested s.pool.free ∧
      ((run (.startEvent .a) s).chan .a).engine.degraded = false ∧
      (run (.startEvent .a) s).pool.records.a.granted = 2 ∧ (run (.startEvent .a) s).pool.queue = [.b] ∧
      w.pool.records.a.granted = 2 ∧
      (let d := { s with pool := (s.pool.setRecord .b { state := .granted, requested := 1, start := 5, granted := 1 }) }
       d.pool.free = 1 ∧ ((run (.startEvent .a) d).chan .a).engine.degraded = true ∧
         ((run (.startEvent .a) d).chan .a).engine.record.map (·.granted) = some 1 ∧
         ((run (.startEvent .a) d).chan .a).engine.promoRect = some fullFrame ∧
         ((run (.startEvent .a) d).chan .a).reporter.flag .scalerShort = true) := by decide

/-- A template with M_in 0 starts in HELD, and a single scaler of the two it needs degrades it (R28, R30, R61). -/
theorem test_start_event_held_degraded :
    let t := { template with mIn := 0, prmTarget := ⟨864, 540, 1056, 540⟩ }
    let e := ((run (.startEvent .a) (withA (armedEngine { junction with requested := 2, template := some t }))).chan .a)
    e.engine.state = .held ∧ e.engine.degraded = true ∧ e.engine.promoRect = some fullFrame ∧
      e.engine.marker = some .listEnd ∧ e.reporter.flag .scalerShort = true ∧ e.reporter.flag .noPromos = true := by
  decide

/-- Channel A armed and waiting while the others hold the six scalers. -/
def starved : State :=
  let full : Request := { state := .granted, requested := 2, start := 0, granted := 2 }
  { dueA junction with
    pool :=
      { records :=
          { a := { state := .waiting, requested := 1, start := 0, granted := 0 }, b := full, c := full, d := full }
        queue := [.a] } }

theorem witness_StartEventMissesWithoutScaler :
    (starved.chan .a).engine.state = .armed ∧ (starved.chan .a).engine.record = some junction ∧
      ahead junction.start starved.ref.sfc = false ∧ (starved.pool.records.get .a).state = .waiting ∧
      starved.pool.free = 0 ∧ junction.requested ≠ 0 ∧ (starved.chan .a).promo.bank0.state ≠ .playing ∧
      (starved.chan .a).promo.bank1.state ≠ .playing ∧ (starved.chan .a).promo.play = .none ∧
      ((run (.startEvent .a) starved).chan .a).engine = .idle ∧
      ((run (.startEvent .a) starved).chan .a).reporter.last.map (·.outcome) = some .missedNoScaler := by decide

/-- A junction that asked for no scaler finds a template that needs one when its slot was written between (R28). -/
theorem witness_StartEventMissesWithoutScaler_zero :
    let s : State :=
      { dueA { junction with requested := 0, granted := 0 } with
        pool := Pool.atReset.setRecord .a { state := .granted, requested := 0, start := 0, granted := 0 } }
    (s.pool.records.get .a).state = .granted ∧ (s.pool.records.get .a).granted = 0 ∧
      fallbackLayout.pgmTarget ≠ fullFrame ∧ ((run (.startEvent .a) s).chan .a).engine = .idle := by decide

/-- Channel A with its end cause about to be taken, its list playing. -/
def ending (e : Engine) : State := playA e (playing 0 46 none .running)

theorem witness_EndCausesRestore :
    let e := { heldEngine junction with marker := some .endCommand }
    let f := { squeezeEngine junction 3 with credit := some 1 }
    let g := { heldEngine junction with watch := some 1, credit := some 2 }
    let h := { heldEngine junction with marker := some .listEnd }
    FirstCause e .endCommand ∧ NamesCause .a e (.endCauseTaken .a) ∧ FirstCause f .creditTimer ∧
      NamesCause .a f (.creditTimerExpiry .a) ∧ FirstCause g .watch ∧ NamesCause .a g (.watchExpiry .a) ∧
      FirstCause h .listEnd ∧ junction.endAction = .restore ∧ 0 < f.k ∧ 0 < fallbackLayout.mOut ∧
      ((run (.endCauseTaken .a) (ending e)).chan .a).engine.m = 25 ∧
      ((run (.creditTimerExpiry .a) (ending f)).chan .a).engine.m = 3 ∧
      ((run (.watchExpiry .a) (ending g)).chan .a).engine.state = .release := by
  refine ⟨.inl ⟨rfl, by decide⟩, .inl rfl, .inr (.inl ⟨rfl, by decide, by decide⟩), .inr (.inl ⟨rfl, by decide⟩),
    .inr (.inr (.inl ⟨rfl, by decide, by decide, by decide⟩)), .inr (.inr ⟨rfl, by decide, by decide⟩),
    .inr (.inr (.inr ⟨rfl, by decide, by decide, by decide⟩)), rfl, by decide, by decide, by decide, by decide,
    by decide⟩

/-- A restore of length 0 from SQUEEZE at k 0 and from HELD with M_out 0 cuts to passthrough (R39, R40, R45). -/
theorem witness_EndCausesRestore_cut :
    let z := { heldEngine { junction with template := some { template with mOut := 0 } } with marker := some .endCommand }
    let k := { squeezeEngine junction 0 with marker := some .endCommand }
    FirstCause z .endCommand ∧ FirstCause k .endCommand ∧ k.k = 0 ∧
      ((run (.endCauseTaken .a) (ending z)).chan .a).engine = .idle ∧
      ((run (.endCauseTaken .a) (ending k)).chan .a).reporter.last.map (·.outcome) = some .completedRestore ∧
      ((run (.endCauseTaken .a) (ending k)).chan .a).promo.bank0.state = .spent := by
  refine ⟨.inl ⟨rfl, rfl⟩, .inl ⟨rfl, rfl⟩, rfl, by decide, by decide, by decide⟩

/-- The start event inside its frame: the first item of 50 frames has shown one (R78), and one of a single frame ends the
list there (log entry 32). -/
theorem witness_StartFramesBeginTheJunction :
    let s := dueA junction
    let one := playA (armedEngine junction)
      { bank0 := { state := .ready, items := [item 1], chain := true }, bank1 := .empty, play := .none }
    (s.chan .a).engine.state = .armed ∧ (s.chan .a).engine.record = some junction ∧
      ahead junction.start s.ref.sfc = false ∧ (s.chan .a).schedule.entries = [] ∧ (s.chan .a).promo.play = .none ∧
      ((run (.channelFrameEvent .a inputs) s).chan .a).promo.play.cursor = some ⟨0, .running, 49, none⟩ ∧
      ((run (.channelFrameEvent .a inputs) one).chan .a).promo.play.cursor = some ⟨0, .exhausted, 0, none⟩ ∧
      ((run (.channelFrameEvent .a inputs) one).chan .a).engine.marker = some .listEnd ∧
      ((run (.channelFrameEvent .a inputs) one).chan .a).reporter.flag .bankUnderrun = true := by decide

theorem witness_StartFramesBeginTheJunction_sound : ((dueA junction).chan .a).schedule.Sound 0 :=
  ⟨by decide, by decide, fun e he => (by cases he), by decide⟩

/-- End causes inside their frame: a restore, a cut of length 0, a takeover, and a takeover that turns into a restore
because the last item shows its last frame at the event (R39, R84). -/
theorem witness_FramesTakeEndCauses :
    let r := { junction with endAction := .takeover }
    let e := { heldEngine r with marker := some .endCommand }
    let z := { squeezeEngine junction 0 with credit := some 1 }
    let last := playA e (playing 1 1 none .running)
    FirstCause e .endCommand ∧ FirstCause z .creditTimer ∧ (((withA e).atFrame .a inputs).chan .a).engine = e ∧
      (((withA z).atFrame .a inputs).chan .a).engine = z ∧
      ((run (.channelFrameEvent .a inputs) (ending e)).chan .a).engine.state = .takeover ∧
      ((run (.channelFrameEvent .a inputs) (ending e)).chan .a).promo.play.cursor = some ⟨0, .running, 45, none⟩ ∧
      ((run (.channelFrameEvent .a inputs) last).chan .a).engine.state = .release ∧
      ((run (.channelFrameEvent .a inputs) last).chan .a).engine.marker = none ∧
      ((run (.channelFrameEvent .a inputs) (ending z)).chan .a).engine = .idle ∧
      ((run (.channelFrameEvent .a inputs) (ending z)).chan .a).reporter.last.map (·.endCause) =
        some (some .creditTimer) := by
  refine ⟨.inl ⟨rfl, rfl⟩, .inr (.inl ⟨rfl, by decide, by decide⟩), by decide, by decide, by decide, by decide,
    by decide, by decide, by decide, by decide⟩

theorem witness_EndCausesTakeOver :
    let r := { junction with endAction := .takeover }
    let e := { heldEngine r with marker := some .endCommand }
    let z := { heldEngine { r with template := some { template with mOut := 0 } } with watch := some 1 }
    ((ending e).chan .a).engine = e ∧ e.record = some r ∧ FirstCause e .endCommand ∧
      NamesCause .a e (.endCauseTaken .a) ∧ ((ending e).chan .a).promo.itemsRemain = true ∧
      FirstCause z .watch ∧ NamesCause .a z (.watchExpiry .a) ∧
      ((run (.endCauseTaken .a) (ending e)).chan .a).engine.state = .takeover ∧
      ((run (.watchExpiry .a) (ending z)).chan .a).engine.state = .promoFull :=
  ⟨by decide, rfl, .inl ⟨rfl, rfl⟩, .inl rfl, by decide, .inr (.inr (.inl ⟨rfl, by decide, by decide, by decide⟩)),
    .inr (.inr ⟨rfl, by decide, by decide⟩), by decide, by decide⟩

theorem witness_MoveEndsEnterTheNextState :
    let e := squeezeEngine { junction with watch := some 9 } 24
    e.m ≤ e.k + 1 ∧ e.state = .squeeze ∧ e.marker = none ∧ expires e.credit = false ∧
      (takeoverEngine junction).marker ≠ some .listEnd ∧
      (takeoverEngine junction).m ≤ (takeoverEngine junction).k + 1 ∧
      ((run (.squeezeMoveEnd .a) (ending e)).chan .a).engine.watch = some 9 ∧
      ((run (.squeezeMoveEnd .a) (ending e)).chan .a).engine.pgmRect = some quarterRect ∧
      ((run (.takeoverMoveEnd .a) (ending (takeoverEngine junction))).chan .a).engine.state = .promoFull := by decide

theorem witness_JunctionsEndAndTheEngineArms :
    (releaseEngine junction).m ≤ (releaseEngine junction).k + 1 ∧
      ((run (.releaseMoveEnd .a) (ending (releaseEngine junction))).chan .a).engine = .idle ∧
      ((run (.takeoverListEnd .a)
        (ending { takeoverEngine junction with marker := some .listEnd })).chan .a).reporter.last.map (·.outcome) =
          some .completedTakeover ∧
      ((run (.promoFullEnd .a)
        (ending { promoFullEngine junction with marker := some .endCommand })).chan .a).promo.bank0.state = .spent ∧
      ((run (.channelFrameEvent .a inputs) (ending (releaseEngine junction))).chan .a).engine = .idle ∧
      ((run (.channelFrameEvent .a inputs) (ending (releaseEngine junction))).chan .a).reporter.last.map (·.outcome) =
        some .completedRestore := by
  decide

/-! ### Witnesses: the Promo List -/

/-- Channel A with a load open on bank 1 for a number of items. -/
def loading (remaining countdown : Nat) : State :=
  onA fun c =>
    { c with
      promo := { c.promo with bank1 := { state := .loading, items := [item 5], chain := false } }
      parser := { c.parser with context := some { bank := .bank1, remaining := remaining, countdown := countdown } } }

theorem witness_OpenBankOpensTheLoad :
    (1 : Nat) = BankId.bank1.code ∧ (0 : Nat) = bitOf 1 false ∧ (1 : Nat) = bitOf 1 true ∧
      (((ending (heldEngine junction)).chan .a).promo.bank .bank0).state = .playing ∧
      (((loading 2 9).chan .a).promo.bank .bank0).state ≠ .playing ∧
      ((run (.openBank .a .primary 0 31 1) (loading 2 9)).chan .a).promo.bank1 = .empty ∧
      ((run (.openBank .a .primary 0 31 1) (loading 2 9)).chan .a).parser.context = some ⟨.bank0, 31, 250⟩ ∧
      ((run (.openBank .a .primary 0 31 0) (ending (heldEngine junction))).chan .a).reporter.results =
        [⟨0x09, .busy, .primary⟩] := by decide

theorem witness_ItemsAppendAndSeal :
    (State.reset.chan .a).parser.context = none ∧ ((loading 2 9).chan .a).parser.context = some ⟨.bank1, 2, 9⟩ ∧
      [rawItem, rawItem].map itemOf = [{ item 50 with }, { item 50 with }].map some ∧
      (∃ i ∈ [{ rawItem with source := 3 }], itemOf i = none) ∧
      ((run (.items .a .primary [rawItem]) (loading 2 9)).chan .a).parser.context = some ⟨.bank1, 1, 250⟩ ∧
      ((run (.items .a .primary [rawItem, rawItem]) (loading 2 9)).chan .a).promo.bank1.state = .ready ∧
      ((run (.items .a .primary [rawItem, rawItem]) (loading 1 9)).chan .a).reporter.results =
        [⟨0x0A, .badCount, .primary⟩] := by decide

theorem witness_LoadsAreDropped :
    ((loading 2 1).chan .a).parser.context = some ⟨.bank1, 2, 1⟩ ∧
      ((run (.loadTimeout .a) (loading 2 1)).chan .a).promo.bank1 = .empty ∧
      ((run (.loadTimeout .a) (loading 2 1)).chan .a).reporter.flag .loadTimeout = true ∧
      ((run (.cancelLoad .a .primary) (loading 2 1)).chan .a).reporter.flag .loadTimeout = false ∧
      ((run (.channelFrameEvent .a inputs) (loading 2 1)).chan .a).reporter.flag .loadTimeout = true ∧
      ((run (.channelFrameEvent .a inputs) (loading 2 9)).chan .a).parser.context = some ⟨.bank1, 2, 8⟩ := by decide

theorem witness_LoadsAreDropped_sound : ((loading 2 1).chan .a).BanksSound := by
  have two : ∀ {p : BankId → Prop}, p .bank0 → p .bank1 → ∀ b, p b := fun h h' b => by cases b <;> assumption
  refine ⟨two ⟨by decide, by decide, by decide⟩ ⟨by decide, by decide, by decide⟩, ?_, ?_⟩
  · exact ⟨two (by decide) (by decide), by decide, by decide, by decide, by decide⟩
  · exact two (by decide) (by decide)

/-- Item counters at 1: the last frame of an item with a successor, of the last item of a bank, and of a GATED item at
its gate limit with its source invalid. -/
theorem witness_ItemsExpire :
    let s := playA (heldEngine junction) (playing 0 1 none .running)
    let last := playA (heldEngine junction) (playing 1 1 none .running)
    let gated := playA (heldEngine junction) (playing 1 30 (some 1) .running)
    (s.chan .a).promo.play.bank = some .bank0 ∧ (s.chan .a).promo.play.cursor = some ⟨0, .running, 1, none⟩ ∧
      (s.chan .a).promo.bank0.items[0]? = some (item 50) ∧ (countedCursor ⟨0, .running, 1, none⟩ true).duration = 0 ∧
      (countedCursor ⟨1, .running, 30, some 1⟩ false).gate = some 0 ∧
      (run (.itemDurationExpiry .a promos) s |>.chan .a).promo.play.cursor = some ⟨0, .finished, 0, none⟩ ∧
      (run (.itemDurationExpiry .a promos) last |>.chan .a).engine.marker = some .listEnd ∧
      (run (.gateLimitExpiry .a { promos with prm1 := lostFrame }) gated |>.chan .a).promo.play.cursor =
        some ⟨1, .exhausted, 30, some 0⟩ := by decide

/-- The engine of the items' witnesses runs on, and one with END marked does not: there LIST_END is left unmarked (R37). -/
theorem witness_ItemsExpire_engine :
    let e := { heldEngine junction with marker := some .endCommand }
    AdvancesItems (heldEngine junction) ∧ RunsOn (heldEngine junction) ∧ ¬ RunsOn e ∧
      ((run (.itemDurationExpiry .a promos) (playA e (playing 1 1 none .running))).chan .a).engine.marker =
        some .endCommand ∧
      ((run (.itemDurationExpiry .a promos) (playA e (playing 1 1 none .running))).chan .a).promo.play.cursor =
        some ⟨1, .exhausted, 0, none⟩ ∧
      ∀ p, ((playA (heldEngine junction) p).atFrame .a inputs).chan .a = (playA (heldEngine junction) p).chan .a := by
  have h : ∀ c, ¬ FirstCause (heldEngine junction) c := by
    rintro c (⟨_, h⟩ | ⟨_, _, h⟩ | ⟨_, _, _, _, h⟩ | ⟨_, h, _⟩) <;> cases h
  exact ⟨.inr (.inl rfl), h, fun h => h .endCommand (.inl ⟨rfl, rfl⟩), by decide, by decide, fun p => rfl⟩

/-- Bank 0's last item finished with bank 1 in a state. -/
def swapping (st : BankState) : State :=
  playA (heldEngine junction)
    { playing 1 0 none .finished with bank1 := { state := st, items := [item 25], chain := false } }

/-- The next item counts at the event at which it starts (R78), as does the first of the READY bank 1; bank 1 no longer
READY is BANK_UNDERRUN. -/
theorem witness_SuccessorsStart :
    let next := playA (heldEngine junction) (playing 0 0 none .finished)
    let start (s : State) : ChannelState := (run (.successorStart ⟨.a, promos⟩) s).chan .a
    (next.chan .a).engine.record = some junction ∧ (next.chan .a).promo.bank0.items[1]? = some (item 60) ∧
      ((swapping .ready).chan .a).promo.bank0.items.length ≤ 1 + 1 ∧
      ((swapping .ready).chan .a).promo.bank1.items[0]? = some (item 25) ∧
      (start next).promo.play = { bank := some .bank0, cursor := some ⟨1, .running, 59, none⟩, started := 2 } ∧
      (start (swapping .ready)).promo.play =
        { bank := some .bank1, cursor := some ⟨0, .running, 24, none⟩, started := 2 } ∧
      (start (swapping .ready)).promo.bank0.state = .spent ∧
      (start (swapping .loading)).reporter.flag .bankUnderrun = true ∧
      (start (swapping .loading)).engine.marker = some .listEnd ∧
      ((run (.channelFrameEvent .a inputs) next).chan .a).promo.play.cursor = some ⟨1, .running, 59, none⟩ := by decide

/-- At a cut to passthrough no successor starts (R80): with END marked in PROMO_FULL, LIST_END in TAKEOVER, and where a
restore of length 0 is due. -/
theorem witness_SuccessorsStart_cut :
    let finished (e : Engine) : State := playA e (playing 0 0 none .finished)
    let full := { promoFullEngine junction with marker := some .endCommand }
    let taking := { takeoverEngine junction with marker := some .listEnd }
    let zero := { heldEngine { junction with template := some { template with mOut := 0 } } with credit := some 1 }
    AdvancesItems full ∧ AdvancesItems taking ∧ AdvancesItems zero ∧ FirstCause zero .creditTimer ∧
      junction.endAction = .restore ∧
      [full, taking, zero].all (fun e => decide (run (.successorStart ⟨.a, promos⟩) (finished e) = finished e)) =
        true := by
  refine ⟨.inr (.inr (.inr rfl)), .inr (.inr (.inl rfl)), .inr (.inl rfl), .inr (.inl ⟨rfl, by decide, by decide⟩), rfl,
    by decide⟩

/-- R155: the promo frames of a reference frame are judged by the first event that reads them, for every channel, and
anew in the next reference frame. -/
theorem test_promo_inputs_judged_once :
    let late := { inputs with promo := { promos with prm1 := { frame with offset := 20000 } } }
    let s := run (.channelFrameEvent .a inputs) .reset
    (s.aligned.map fun p => p.prm1.offset) = some 0 ∧
      ((run (.channelFrameEvent .b late) s).aligned.map fun p => p.prm1.offset) = some 0 ∧
      (run .referenceFrameEvent s).aligned = none ∧
      ((run (.channelFrameEvent .b late) (run .referenceFrameEvent s)).aligned.map fun p => p.prm1.offset) =
        some 20000 := by decide

/-! ### Witnesses: the Scaler Pool, the Template Library and its protection -/

theorem witness_ScalerGrantServesTheHead :
    let s (n : Nat) : State :=
      { starved with
        pool := starved.pool.setRecord .b { state := .granted, requested := 2, start := 0, granted := n } }
    (s 1).pool.queue = [.a] ∧ (run .scalerGrant (s 1)).pool.records.a.state = .granted ∧
      (run .scalerGrant (s 2)).pool.records.a.state = .waiting := by decide

theorem witness_TemplatesAreValidated :
    State.reset.management.get .a = true ∧
      ((run (.templateErase .a .primary 41) .reset).chan .a).reporter.results = [⟨0x22, .badField, .primary⟩] ∧
      ((run (.templateErase .a .primary 0) .reset).chan .a).reporter.results = [⟨0x22, .badField, .primary⟩] ∧
      ¬ TemplatePasses { rawTemplate with borderWidth := 18 } ∧
      TemplatePasses { rawTemplate with label := some [0x20, 0x7E] } := by
  refine ⟨by decide, by decide, by decide, fun h => ?_, ?_⟩
  · exact absurd h.2.2.2.2.2.2.2.2.2.2.2.1 (by decide)
  · refine ⟨fun l hl => ?_, ?_⟩
    · obtain rfl : [0x20, 0x7E] = l := Option.some.inj hl
      decide
    · simp only [Rect.Drawable]
      refine ⟨by decide, by decide, by decide, by decide, by decide, by decide, by decide, by decide, ?_, by decide,
        by decide, by decide, by decide⟩
      rintro c (rfl | rfl) <;> decide

theorem witness_StoresAndErasesAreTaken :
    let held : State :=
      { State.reset with
        protection := { LibraryProtection.delivered with record := { Protection.delivered with sizeCode := 6 } } }
    templateOf rawTemplate = some template ∧ held.protection.protects 31 = true ∧
      State.reset.protection.protects 31 = false ∧ busy.library.operation ≠ none ∧
      ((run (.templateWrite .a .primary 32 rawTemplate) held).chan .a).reporter.results =
        [⟨0x21, .protectedSlot, .primary⟩] ∧
      (run (.templateWrite .a .primary 32 rawTemplate) held).library.storeFail = true ∧
      (run (.templateWrite .a .primary 32 rawTemplate) .reset).library.storedSlot 31 = .underOperation ∧
      (run (.templateErase .a .primary 40) .reset).library.volatileSlots.get 7 = none := by decide

theorem witness_LibraryServesTheQueueHead :
    busy.library.fetchQueue = { channel := .c, slot := 5 } :: [] ∧
      ((run (.fetchServed .c) busy).chan .c).fetch = .served ∧
      ((run (.fetchServed .c) busy).chan .c).reporter.flag .fallbackUsed = true ∧
      (run .libraryFrameEvent busy).library.suspended = true := by decide

/-- The part with nothing queued, channel B's fetch of slot 3 set aside behind the WRITE. -/
def completing (progress : Nat) : State :=
  { busy with library := { writing progress with setAside := [{ channel := .b, slot := 3 }] } }

theorem witness_OperationsProgressAndComplete :
    (completing 5).library.fetchQueue = [] ∧
      (completing 5).library.operation = some { op := .write 2 template, progress := 5 } ∧
      (Operation.write 2 template).length ≤ 5 + 1 ∧ 4 + 1 < (Operation.write 2 template).length ∧
      (∀ f ∈ (completing 5).library.setAside, f.slot = (2 : SlotIndex).val + 1) ∧
      (run .operationComplete (completing 5)).library.storedSlot 2 = .valid template ∧
      ((run .operationComplete (completing 5)).chan .b).fetch = .served ∧
      (run .libraryFrameEvent (completing 4)).library.operation = some { op := .write 2 template, progress := 5 } ∧
      frozen.library.setAside = [] ∧ (Operation.protectSet { Protection.delivered with sizeCode := 6 }).length ≤ 1 + 1 := by
  decide

theorem witness_ProtectedSetAndTheGuard :
    [0, 1, 2, 4, 8, 16, 32][(frozen.protection.record.sizeCode)]? = some 0 ∧
      [0, 1, 2, 4, 8, 16, 32][(guardedBusy.protection.record.sizeCode)]? = some 2 ∧
      guardedBusy.protection.record.mode = .range ∧ guardedBusy.protection.record.complement = false ∧
      guardedBusy.protection.protects 2 = false ∧ busy.management.get .a = true ∧
      (run (.freeze .a .primary) guardedBusy).protection.guardState = .frozen ∧
      (run (.libguardChange true) .reset).protection.libguard = true := by decide

/-- The part GUARDED, with LIBGUARD at a level. -/
def guardedAt (level : Bool) : State :=
  { State.reset with protection := { LibraryProtection.delivered with guardState := .guarded, libguard := level } }

theorem witness_LockCommandsChangeTheLocks :
    State.reset.management.get .a = true ∧ (guardedAt true).protection.libguard = true ∧
      ((run (.lockSlot .a .primary 33) (guardedAt true)).chan .a).reporter.results = [⟨0x24, .badField, .primary⟩] ∧
      ((run (.unlockSlot .a .primary 32) (guardedAt true)).chan .a).reporter.results = [⟨0x25, .guarded, .primary⟩] ∧
      (run (.unlockSlot .a .primary 32) (guardedAt false)).protection.locks.get 31 = false ∧
      (run (.unlockSlot .a .primary 32) (guardedAt false)).protection.locks.get 30 = true ∧
      (run (.unlockAll .a .primary) .reset).protection.locks = Vector.replicate 32 false ∧
      (run (.lockAll .a .primary) .reset).protection.locks = Vector.replicate 32 true ∧
      (let s := { State.reset with
        protection := { LibraryProtection.delivered with record := ⟨.individual, .low, 0, false, .opened⟩ } }
       s.protection.protects 31 = true ∧ (run (.unlockAll .a .primary) s).protection.protects 31 = false) := by decide

theorem witness_ProtectSetIsStaged :
    ((run (.protectSet .a .primary ⟨0, 0, 7, 0, 0⟩) .reset).chan .a).reporter.results = [⟨0x23, .badField, .primary⟩] ∧
      ((run (.protectSet .a .primary ⟨1, 1, 6, 1, 1⟩) frozen).chan .a).reporter.results = [⟨0x23, .frozen, .primary⟩] ∧
      ((run (.protectSet .a .primary ⟨1, 1, 6, 1, 1⟩) (guardedAt true)).chan .a).reporter.results =
        [⟨0x23, .guarded, .primary⟩] ∧
      ((run (.protectSet .a .primary ⟨1, 1, 6, 1, 1⟩) busy).chan .a).reporter.results = [⟨0x23, .busy, .primary⟩] ∧
      (run (.protectSet .a .primary ⟨1, 1, 6, 1, 1⟩) (guardedAt false)).library.operation =
        some { op := .protectSet ⟨.individual, .high, 6, true, .guarded⟩, progress := 0 } := by decide

/-! ### Witnesses: the reference, the parser and the resets -/

/-- The part with a reference state and a qualifying count. -/
def reference (st : RefState) (n : Option Nat) : State :=
  { State.reset with ref := { State.reset.ref with state := st, qualifying := n, sfc := 4294967295 } }

theorem witness_ReferenceFramesAdvanceTheCount :
    (run .referenceFrameEvent (reference .freeRun (some 7))).ref.sfc = 0 ∧
      (run .referenceFrameEvent (reference .freeRun (some 8))).ref.state = .locked ∧
      (reference .locked none).ref.state = .locked ∧ (run .refLoss (reference .locked none)).ref.refLost = true := by
  decide

/-- The eighth frame start in step qualifies; the lock waits until half a frame has passed; a start outside one-eighth of
a frame counts from 1 again. -/
theorem witness_ReferenceIsQualified :
    (run (.refFrameStart ⟨some .r25, 57344⟩ 32768) (reference .freeRun (some 7))).ref.state = .locked ∧
      (run (.refFrameStart ⟨some .r25, 73728⟩ 32767) (reference .freeRun (some 7))).ref.qualifying = some 8 ∧
      (run (.refFrameStart ⟨some .r25, 73729⟩ 65536) (reference .freeRun (some 7))).ref.qualifying = some 1 ∧
      (run (.refQualifyMiss 65536) (reference .freeRun (some 8))).ref.sfc = 0 ∧
      (run (.refQualifyMiss 65535) (reference .freeRun (some 8))).ref.sfc = 4294967295 ∧
      (run (.refFrameStart ⟨some .r25, 0⟩ 73728) (reference .locked none)).ref.sfc = 0 ∧
      (run (.refFrameStart ⟨some .r25, 0⟩ 73729) (reference .locked none)).ref.sfc = 4294967295 ∧
      (run (.refFrameStart ⟨some .r29, 65536⟩ 65536) (reference .freeRun (some 7))).ref.qualifying = some 7 := by decide

/-- R149: held back, a frame start outside one-eighth of a frame still takes the event and locks once half a frame has
passed; before that it counts from 1 again. -/
theorem test_held_back_start_locks :
    (run (.refFrameStart ⟨some .r25, 40000⟩ 40000) (reference .freeRun (some 8))).ref.state = .locked ∧
      (run (.refFrameStart ⟨some .r25, 40000⟩ 40000) (reference .freeRun (some 8))).ref.sfc = 0 ∧
      (run (.refFrameStart ⟨some .r25, 20000⟩ 20000) (reference .freeRun (some 8))).ref.state = .freeRun ∧
      (run (.refFrameStart ⟨some .r25, 20000⟩ 20000) (reference .freeRun (some 8))).ref.qualifying = some 1 := by decide

theorem witness_SetTimeJumpsEveryChannel :
    busy.management.get .a = true ∧ (busy.chan .b).engine.state = .armed ∧
      (busy.chan .b).engine.record = some (awaiting 3) ∧ (busy.chan .a).engine.state ≠ .idle ∧
      (busy.chan .a).engine.state ≠ .armed ∧ (∃ e ∈ (busy.chan .d).schedule.entries, ahead e.start 20 = true) ∧
      (∃ e ∈ (busy.chan .d).schedule.entries, e.start = 20) ∧
      ∃ e ∈ (busy.chan .d).schedule.entries, ¬ (ahead e.start 25 = true ∨ e.start = 25) := by
  refine ⟨by decide, by decide, by decide, by decide, by decide, ⟨entry 30, ?_, by decide⟩, ⟨entry 20, ?_, rfl⟩,
    ⟨entry 20, ?_, by decide⟩⟩
  · exact List.mem_cons_of_mem _ List.mem_cons_self
  · exact List.mem_cons_self
  · exact List.mem_cons_self

/-- An IDLE channel arms the kept entry that stands ahead by at most 12 of the new value, with lateness 0 (R14, R17); one
that stands ahead by 13 waits. -/
theorem witness_SetTimeJumpsEveryChannel_idle :
    let x := (scheduled [200, 300]).chan .a
    x.engine.state = .idle ∧ (ahead (entry 200).start 190 = true ∧ ((entry 200).start - 190).toNat ≤ 12) ∧
      ((jumpChannel { scheduled [200, 300] with ref := { State.reset.ref with sfc := 188 } } .a).chan .a).engine.state =
        .armed ∧
      ((jumpChannel { scheduled [200, 300] with ref := { State.reset.ref with sfc := 187 } } .a).chan .a).engine.state =
        .idle ∧
      (x.schedule.entries.all fun e => decide (12 < (e.start - 187).toNat)) = true := by decide

theorem witness_SetTimeJumpsEveryChannel_sound :
    ((scheduled [200, 300]).chan .a).schedule.Sound (scheduled [200, 300]).ref.sfc := by
  refine ⟨by decide, by decide, fun e he => ?_, by decide⟩
  have he' : e = entry 200 ∨ e = entry 300 := by simpa using (show e ∈ [entry 200, entry 300] from he)
  rcases he' with rfl | rfl <;> exact ⟨by decide, fun w hw => (by cases hw), by decide⟩

/-- 09, "Worked case: SET_TIME across the wrap", at one channel: both entries are missed, the record holds the later. -/
theorem test_jump_notice :
    let s := scheduled [4294967294, 3]
    let t := jumpChannel { s with ref := { s.ref with sfc := 500 } } .a
    (t.chan .a).schedule.entries = [] ∧ (t.chan .a).reporter.last.map (·.start) = some 3 ∧
      (t.chan .a).reporter.last.map (·.outcome) = some .missedTimeJump ∧ (t.chan .a).reporter.flag .timeJump = true := by
  decide

theorem witness_UnitAndManagementAreReplacedWhole :
    (run (.setUnit .a .primary ⟨254, 254, 255, 1, 0⟩) .reset |>.chan .a).parser.addressing =
        ⟨254, 254, 255, true, false⟩ ∧
      (run (.setUnit .a .primary ⟨255, 0, 255, 1, 0⟩) .reset |>.chan .a).reporter.results =
        [⟨0x0C, .badField, .primary⟩] ∧
      State.reset.management.get .a = true ∧ (0xF0 : Byte) &&& 0x0F = 0 ∧ (0x18 : Byte) &&& 0x0F ≠ 0 ∧
      (run (.setManagement .a .primary 0x18) .reset).management = ⟨false, false, false, true⟩ := by decide

/-- Channel A with a reset arm. -/
def armedReset (sc : Scope) (window : Nat) : State :=
  onA fun c => { c with parser := { c.parser with arm := some { scope := sc, window := window } } }

theorem witness_ResetArmIsTestedAndExpires :
    State.reset.management.get .b = false ∧ State.reset.management.get .a = true ∧
      ((armedReset .part 1).chan .a).parser.arm = some ⟨.part, 1⟩ ∧
      (∀ a, ((armedReset .part 1).chan .a).parser.arm = some a → a.scope ≠ .channel) ∧
      ((run (.resetArm .a .primary 1) .reset).chan .a).parser.arm = some ⟨.part, 2⟩ ∧
      ((run (.resetArmExpiry .a) (armedReset .part 1)).chan .a).parser.arm = none ∧
      ((run (.channelFrameEvent .a inputs) (armedReset .part 1)).chan .a).parser.arm = none ∧
      ((run (.channelFrameEvent .a inputs) (armedReset .part 2)).chan .a).parser.arm = some ⟨.part, 1⟩ ∧
      ((run (.reset .a .primary 0) (armedReset .part 1)).chan .a).reporter.results = [⟨0x10, .notArmed, .primary⟩] := by
  refine ⟨by decide, by decide, by decide, fun a h => ?_, by decide, by decide, by decide, by decide, by decide⟩
  obtain rfl : (⟨.part, 1⟩ : ResetArm) = a := Option.some.inj h
  decide

theorem witness_ChannelResetClearsTheChannel :
    let s := busy.modParser .a ({ · with arm := some { scope := .channel, window := 2 } })
    (s.chan .a).parser.arm = some ⟨.channel, 2⟩ ∧ ((run (.reset .a .primary 0) s).chan .a).engine = .idle ∧
      (run (.reset .a .primary 0) s).pool.records.a = Request.none ∧
      ((run (.reset .a .primary 0) s).chan .b).engine.state = .armed := by decide

theorem witness_PartResetClearsThePart :
    let s := busy.modParser .a ({ · with arm := some { scope := .part, window := 1 } })
    (s.chan .a).parser.arm = some ⟨.part, 1⟩ ∧ s.management.get .a = true ∧
      (run (.reset .a .primary 1) s).library.storedSlot 2 = .invalid ∧
      (run (.reset .a .primary 1) s).library.storeFail = true ∧
      ((run (.reset .a .primary 1) s).chan .c).engine = .idle := by decide

theorem test_power_on :
    (run (.powerOn true false) busy).ref.rate = .r50 ∧ (run (.powerOn true false) busy).library.storedSlot 2 = .invalid ∧
      (run (.powerOn true false) busy).library.storeFail = false := by decide

/-! ### Witnesses: the Status Reporter and the frames -/

theorem witness_ClearEventsAndReadback :
    busy.library.report 40 = some .blank ∧ busy.library.report 3 = some .underOperation ∧
      (busy.chan .d).schedule.entries[1]? = some (entry 30) ∧ (busy.chan .d).schedule.entries.length ≤ 2 ∧
      (0 : Nat) = BankId.bank0.code ∧ ((busy.chan .a).promo.bank .bank0).items[1]? = some (item 60) ∧
      ((busy.chan .a).promo.bank .bank0).items.length ≤ 2 ∧
      ((run (.readback .d .primary 1 1 0) busy).chan .d).reporter.readback = some (.entry 1 (entry 30)) ∧
      ((run (.clearEvents .a .primary 0xFDFF) (State.reset.raise .a .timeJump)).chan .a).reporter.flag .timeJump =
        true ∧
      ((run (.clearEvents .a .primary 0x0200) (State.reset.raise .a .timeJump)).chan .a).reporter.flags = 0 := by decide

/-- The reporter's status packet stands on line 12 ahead of the others, its results emptied behind it. -/
theorem witness_StatusPacketsReport :
    (busy.chan .a).reporter.Sound ∧
      (let s := run (.endHold .a .primary) .reset
       let t := run (.channelFrameEvent .a inputs) s
       (s.chan .a).reporter.results.length = 1 ∧ (t.chan .a).reporter.results = [] ∧
         (State.reported .a s t |>.chan .a).reporter.results = (s.chan .a).reporter.results ∧
         (t.chan .a).output.built.map (fun f => f.anc.map AncPacket.line) = some [12]) :=
  ⟨⟨by decide, by decide⟩, by decide⟩

/-- A frame of PGM-A with its 1920 samples of pair 1. -/
def sounding : FrameInputs := { inputs with pgm := { frame with pair1 := List.replicate 1920 (8388607, -8388608) } }

theorem witness_IdleFramesPassThrough :
    let c := State.reset.chan .a
    c.engine.state = .idle ∧ c.schedule.entries = [] ∧ c.parser.context = none ∧ c.parser.arm = none ∧
      inputValid State.reset.ref.rate sounding.pgm = true ∧
      sounding.pgm.pair1.length = frameSamples State.reset.ref.rate sounding ∧
      (∀ x ∈ sounding.pgm.pair1, sampleWf x = true) ∧ c.composer.gP.target = 65536 ∧ c.composer.gP.position = none ∧
      c.composer.gR.target = 0 ∧ c.composer.gR.position = none := by
  refine ⟨by decide, by decide, by decide, by decide, by decide, ?_, fun x h => ?_, by decide, by decide, by decide,
    by decide⟩
  · simp only [sounding, List.length_replicate]
    decide
  · rw [List.eq_of_mem_replicate h]
    decide

/-- R143: the samples of a frame at each rate, and of a frame that R149 shortens to half. -/
theorem test_frame_samples :
    let f (rate : FrameRate) (length : Nat) (long : Bool) := frameSamples rate { inputs with length := length, long := long }
    [f .r25 65536 false, f .r29 65536 false, f .r29 65536 true, f .r50 65536 false, f .r59 65536 false,
      f .r59 65536 true, f .r50 32768 false] = [1920, 1601, 1602, 960, 800, 801, 480] := by decide

/-- R155: a frame a quarter of a frame away from the reference frame event is valid, one tick more is not. -/
theorem test_input_valid :
    inputValid .r25 { frame with offset := 16384 } = true ∧ inputValid .r25 { frame with offset := -16384 } = true ∧
      inputValid .r25 { frame with offset := 16385 } = false ∧ inputValid .r50 frame = false ∧
      inputValid .r25 { frame with progressive := false } = false := by decide

/-- Frames that take no end cause: a squeeze with an empty list advances to the worked rectangle and enters HELD with
LIST_END marked; the item counts; the takeover reaches PROMO_FULL; in RELEASE a count of 1 stays at 0 (R81). -/
theorem witness_RunningFramesGoOn :
    let e := squeezeEngine junction 23
    let frameOf (s : State) : ChannelState := (run (.channelFrameEvent .a inputs) s).chan .a
    let back := { releaseEngine junction with k := 3 }
    (((withA e).atFrame .a inputs).chan .a).engine = e ∧ e.record = some junction ∧ e.move.isSome = true ∧
      RunsOn e ∧ RunsOn back ∧ RunsOn (takeoverEngine junction) ∧ RunsOn (promoFullEngine junction) ∧
      ((withA e).chan .a).promo.play.bank = none ∧
      (frameOf (withA e)).engine.k = 24 ∧ (frameOf (withA e)).engine.pgmRect = some ⟨958, 0, 962, 541⟩ ∧
      (frameOf (withA (squeezeEngine junction 24))).engine.state = .held ∧
      (frameOf (withA (squeezeEngine junction 24))).engine.marker = some .listEnd ∧
      (frameOf (ending e)).promo.play.cursor = some ⟨0, .running, 45, none⟩ ∧
      (frameOf (ending (takeoverEngine junction))).engine.state = .promoFull ∧
      (frameOf (playA back (playing 0 1 none .running))).promo.play.cursor = some ⟨0, .running, 0, none⟩ ∧
      (frameOf (playA back (playing 0 0 none .running))).promo.play.cursor = some ⟨0, .running, 0, none⟩ ∧
      (frameOf (playA { heldEngine junction with credit := some 9, watch := some 2 } (playing 0 46 none .running))).engine
        = { heldEngine junction with credit := some 8, watch := some 1 } := by
  have h : ∀ c, ¬ FirstCause (squeezeEngine junction 23) c := by
    rintro c (⟨_, h⟩ | ⟨_, _, h⟩ | ⟨_, _, _, h, _⟩ | ⟨_, h, _⟩) <;> cases h
  exact ⟨by decide, rfl, rfl, h, by simp only [RunsOn, releaseEngine]; decide,
    by simp only [RunsOn, takeoverEngine]; decide, by simp only [RunsOn, promoFullEngine]; decide, by decide, by decide,
    by decide, by decide, by decide, by decide, by decide, by decide, by decide, by decide⟩

/-- A squeeze hands the composer two drawable windows, painted to the last column of every component. -/
theorem witness_FramesArePainted :
    let s := withA (squeezeEngine junction 3)
    let view := State.handed .a inputs s (run (.channelFrameEvent .a inputs) s)
    s.RecordPresent .a ∧ State.reset.RecordPresent .a ∧ view.state = .squeeze ∧
      view.pgm = some (moveRect 4 25 .easeOut { src := fullFrame, dst := quarterRect }) ∧ view.promo = some fullFrame ∧
      (∀ r, view.pgm = some r → Rect.Drawable r) ∧ (∀ q, view.promo = some q → Rect.Drawable q) ∧
      1918 * Component.luma.scale < 1920 ∧ 959 * Component.cb.scale < 1920 := by
  refine ⟨fun _ => rfl, fun h => absurd rfl h, by decide, by decide, by decide, fun r h => ?_, fun q h => ?_, by decide,
    by decide⟩
  · obtain rfl := Option.some.inj h
    simp only [Rect.Drawable]
    decide
  · obtain rfl := Option.some.inj h
    simp only [Rect.Drawable]
    decide

/-- A squeeze without an item aims gP by the template's code and gR at silence, a passthrough frame aims gP at full; a
ramp from full to silence is half way after 512 samples and done after 1024. -/
theorem witness_GainsRampAndPairOneIsMixed :
    let s := (withA (squeezeEngine junction 3)).modChan .a fun c =>
      { c with composer := { c.composer with look := .ofTemplate fallbackLayout } }
    let view := State.handed .a inputs s (run (.channelFrameEvent .a inputs) s)
    s.RecordPresent .a ∧ view.look.codes = some { pgm := fallbackLayout.pgmAudio, prm := fallbackLayout.prmAudio } ∧
      AimsAt view (gainTargets view).1 (gainTargets view).2 ∧ AimsAt .passthrough 65536 0 ∧
      (Gain.aimed (.settled 65536) 0).sample 512 = 32768 ∧
      ((Gain.aimed (.settled 65536) 0).mixed 1024).position = none ∧ mixed 8388607 8388607 65536 65536 = 8388607 := by
  refine ⟨fun _ => rfl, by decide, ⟨fun h => ?_, fun d h => ?_⟩, ⟨fun _ => ⟨rfl, rfl⟩, fun d h => ?_⟩, by decide,
    by decide, by decide⟩
  · rcases h with h | h <;> cases h
  · obtain rfl := Option.some.inj h
    exact ⟨fun _ => ⟨fun i h => (by cases h), fun _ => ⟨rfl, rfl⟩⟩, fun h => by rcases h with h | h <;> cases h⟩
  · cases h

theorem witness_HoldsAndRampsEnd :
    let lost : FrameInputs := { inputs with pgm := lostFrame }
    let s := onA fun c => { c with composer := { c.composer with pgmHold := { counter := 5, picture := none } } }
    let ramp : Gain := { present := 60, target := 0, start := 65536, position := some 1023 }
    let t := onA fun c => { c with composer := { c.composer with gR := ramp } }
    (s.chan .a).view.lost s.ref.rate lost .programme = true ∧ ((s.chan .a).composer.hold .programme).counter = 5 ∧
      ((run (.sourceHoldExpiry .a .programme lost) s).chan .a).composer.pgmHold.counter = 6 ∧
      ((t.chan .a).composer.gain .gR).position = some 1023 ∧ 1024 < 1023 + frameSamples t.ref.rate inputs ∧
      ((t.chan .a).composer.gain .gR).target = (gainTargets (t.chan .a).view).2 ∧
      ((run (.gainRampEnd .a .gR inputs) t).chan .a).composer.gR.position = none ∧
      ((run (.gainRampEnd .a .gR inputs) t).chan .a).composer.gR.present = 0 ∧
      ((run (.channelFrameEvent .a lost) s).chan .a).composer.pgmHold.counter = 6 ∧
      (let first := onA fun c => { c with composer := { c.composer with pgmHold := { counter := 0, picture := none } } }
       ((run (.channelFrameEvent .a lost) first).chan .a).reporter.flag .sourceHold = true ∧
         ((run (.channelFrameEvent .a lost) first).chan .a).composer.pgmHold.counter = 1) := by decide

theorem witness_EasedValuesRise : (1 : Nat) ≤ 250 ∧ (250 : Nat) ≤ 250 ∧ (0 : Nat) ≤ 250 := by decide

theorem witness_ItemsAppendAndSeal_check :
    itemOf { rawItem with timing := 1, duration := 32768 } =
      some { item 32768 with timing := .gated 65535 } ∧
      itemOf { rawItem with timing := 1, duration := 40, gateLimit := some 39 } = none ∧
      itemOf { rawItem with gateLimit := some 60 } = none ∧ itemOf { rawItem with duration := 0 } = none ∧
      itemOf { rawItem with pgmAudio := some 4 } = none := by decide

/-- A loss of PGM-A is shown from the first lost frame with SOURCE_HOLD set, and the counter stays at 6 (R139). -/
theorem test_source_hold :
    let h (n : Nat) : Hold := { counter := n, picture := none }
    (drawInput false blank fullFrame black (h 0)).begins = true ∧
      (drawInput false blank fullFrame black (h 6)).hold.counter = 6 ∧
      (drawInput true blank fullFrame black (h 3)).hold.counter = 0 := by decide

theorem test_withFetchWord : (busy.withFetchWord 8 0).pending = busy.pending ∧ decodeTableWord 8 0x52 = none := by decide

end Sys2Proof.Tests
end

