-- ==== Sys2Proof/Proofs/ScheduleEdits.lean ====
section
/-!
PROOFS. The taking of a packet in the words of the statements, and the editing of a Junction Schedule by DELETE,
CLEAR_SCHEDULE and SET_TOLERANCE (R7, R12, R13).
-/

namespace Sys2Proof.Machine

/-! ### The taking of a packet -/

/-- A packet taken: the owning block acts on the disarmed state, and its code is answered (R161, R171). -/
theorem take_eq_answering {ch : Channel} {kind : Nat} {m : Match} {body : State → State × ResultCode} {s t : State}
    {code : ResultCode} (h : body (s.taking ch) = (t, code)) :
    take ch kind m body s = t.answering ch kind code m := by
  change (body (s.taking ch)).1.answering ch kind (body (s.taking ch)).2 m = _
  rw [h]

/-- A packet whose owning block changes nothing is refused. -/
theorem take_eq_refusing {ch : Channel} {kind : Nat} {m : Match} {body : State → State × ResultCode} {s : State}
    {code : ResultCode} (h : body (s.taking ch) = (s.taking ch, code)) :
    take ch kind m body s = s.refusing ch kind code m :=
  take_eq_answering h

@[simp] theorem State.taking_chan_schedule (s : State) (ch : Channel) :
    ((s.taking ch).chan ch).schedule = (s.chan ch).schedule := State.modParser_chan_schedule ..

/-! ### The edits of a schedule

Each is stated for a state whose channel holds the schedule `d`, so that it serves the state before the packet and the
state in which the owning block finds it. -/

/-- One channel's schedule replaced. -/
def State.withSchedule (s : State) (ch : Channel) (d : Schedule) : State :=
  s.modChan ch fun x => { x with schedule := d }

section
variable {s : State} {ch : Channel} {d : Schedule}

theorem deleteBody_of_held {start : FrameValue} (hd : (s.chan ch).schedule = d)
    (h : ∃ e ∈ d.entries, e.start = start) :
    deleteBody ch start s =
      (s.withSchedule ch { d with entries := d.entries.filter fun e => decide (e.start ≠ start) }, .ok) := by
  subst hd
  exact if_pos (by simpa using h)

theorem deleteBody_of_absent {start : FrameValue} (hd : (s.chan ch).schedule = d)
    (h : ∀ e ∈ d.entries, e.start ≠ start) : deleteBody ch start s = (s, .notFound) := by
  subst hd
  exact if_neg (by simpa using h)

theorem clearScheduleBody_eq (hd : (s.chan ch).schedule = d) :
    clearScheduleBody ch s = (s.withSchedule ch { d with entries := [] }, .ok) := by
  subst hd
  rfl

/-- The limit of the late tolerance, in the words of R7. -/
theorem min_maxTolerance (v : Nat) : min v Config.maxTolerance = if 4 < v then 4 else v := by
  unfold Config.maxTolerance
  split <;> omega

theorem setToleranceBody_eq (hd : (s.chan ch).schedule = d) (v : Nat) :
    setToleranceBody ch v s = (s.withSchedule ch { d with tolerance := if 4 < v then 4 else v }, .ok) := by
  subst hd
  rw [← min_maxTolerance]
  rfl

end

/-! ### The commands -/

theorem exec_delete_of_held {s : State} {ch : Channel} {start : FrameValue} (m : Match)
    (h : ∃ e ∈ (s.chan ch).schedule.entries, e.start = start) :
    exec (.delete ch m start) s =
      .next (((s.taking ch).withSchedule ch
        { (s.chan ch).schedule with
          entries := (s.chan ch).schedule.entries.filter fun e => decide (e.start ≠ start) }).answering
        ch 0x03 .ok m) :=
  congrArg Host.Outcome.next (take_eq_answering (deleteBody_of_held (s.taking_chan_schedule ch) h))

theorem exec_delete_of_absent {s : State} {ch : Channel} {start : FrameValue} (m : Match)
    (h : ∀ e ∈ (s.chan ch).schedule.entries, e.start ≠ start) :
    exec (.delete ch m start) s = .next (s.refusing ch 0x03 .notFound m) :=
  congrArg Host.Outcome.next (take_eq_refusing (deleteBody_of_absent (s.taking_chan_schedule ch) h))

theorem exec_clearSchedule (s : State) (ch : Channel) (m : Match) :
    exec (.clearSchedule ch m) s =
      .next (((s.taking ch).withSchedule ch { (s.chan ch).schedule with entries := [] }).answering ch 0x04 .ok m) :=
  congrArg Host.Outcome.next (take_eq_answering (clearScheduleBody_eq (s.taking_chan_schedule ch)))

theorem exec_setTolerance (s : State) (ch : Channel) (m : Match) (v : Nat) :
    exec (.setTolerance ch m v) s =
      .next (((s.taking ch).withSchedule ch
        { (s.chan ch).schedule with tolerance := if 4 < v then 4 else v }).answering ch 0x05 .ok m) :=
  congrArg Host.Outcome.next (take_eq_answering (setToleranceBody_eq (s.taking_chan_schedule ch) v))

/-- Settles O19: each command is its owning block's edit of the schedule on the disarmed state, then the answer. -/
theorem scheduleIsEdited : Obligations.ScheduleIsEdited := fun ch m _ v s =>
  ⟨exec_delete_of_held m, exec_delete_of_absent m, exec_clearSchedule s ch m, exec_setTolerance s ch m v⟩

end Sys2Proof.Machine
end

section
/-!
PROOFS. The easing of a move (R50 to R52): progress and the four easings each keep the order of their argument, and
meet 0 and 65536 at the ends.
-/

namespace Sys2Proof.Machine

/-! ### Progress (R50) -/

@[simp] theorem progress_zero (m : Nat) : progress 0 m = 0 := by simp [progress]

theorem progress_self {m : Nat} (h : 0 < m) : progress m m = 65536 := Nat.mul_div_cancel_left 65536 h

theorem progress_mono {k l : Nat} (m : Nat) (h : k ≤ l) : progress k m ≤ progress l m :=
  Nat.div_le_div_right (Nat.mul_le_mul_right 65536 h)

/-! ### The easings (R51) -/

@[simp] theorem eased_zero (c : Easing) : eased c 0 = 0 := by cases c <;> rfl

@[simp] theorem eased_full (c : Easing) : eased c 65536 = 65536 := by cases c <;> rfl

/-- The lower branch of EASE_BOTH ends below the middle (R52, the join). -/
theorem eased_easeBoth_le_of_lt {p : Nat} (h : p < 32768) : eased .easeBoth p ≤ 32768 := by
  have square : p * p ≤ 32768 * 32768 := Nat.mul_le_mul h.le h.le
  simp only [eased, if_pos h]
  omega

/-- The upper branch of EASE_BOTH begins at the middle (R52, the join). -/
theorem le_eased_easeBoth_of_le {p : Nat} (h : 32768 ≤ p) : 32768 ≤ eased .easeBoth p := by
  have rest : 65536 - p ≤ 32768 := by omega
  have square : (65536 - p) * (65536 - p) ≤ 32768 * 32768 := Nat.mul_le_mul rest rest
  simp only [eased, if_neg h.not_gt]
  omega

/-- Each formula keeps order: the square of a rising value rises, the square of a falling value falls and is
subtracted, and floor keeps order (R52). -/
theorem eased_mono (c : Easing) {p q : Nat} (h : p ≤ q) : eased c p ≤ eased c q := by
  have rising : p * p ≤ q * q := Nat.mul_le_mul h h
  have falling : (65536 - q) * (65536 - q) ≤ (65536 - p) * (65536 - p) :=
    have rest := Nat.sub_le_sub_left h 65536
    Nat.mul_le_mul rest rest
  cases c with
  | linear => exact h
  | easeIn => exact Nat.div_le_div_right rising
  | easeOut => exact Nat.sub_le_sub_left (Nat.div_le_div_right falling) 65536
  | easeBoth =>
    rcases Nat.lt_or_ge q 32768 with hq | hq
    · have hp : p < 32768 := h.trans_lt hq
      simp only [eased, if_pos hp, if_pos hq]
      exact Nat.div_le_div_right (Nat.mul_le_mul_left 2 rising)
    · rcases Nat.lt_or_ge p 32768 with hp | hp
      · exact (eased_easeBoth_le_of_lt hp).trans (le_eased_easeBoth_of_le hq)
      · simp only [eased, if_neg hp.not_gt, if_neg hq.not_gt]
        exact Nat.sub_le_sub_left (Nat.div_le_div_right (Nat.mul_le_mul_left 2 falling)) 65536

/-! ### The eased value of a move (R52) -/

theorem eased_progress_zero (c : Easing) (m : Nat) : eased c (progress 0 m) = 0 := by
  rw [progress_zero, eased_zero]

theorem eased_progress_self (c : Easing) {m : Nat} (h : 0 < m) : eased c (progress m m) = 65536 := by
  rw [progress_self h, eased_full]

theorem eased_progress_mono (c : Easing) {k l : Nat} (m : Nat) (h : k ≤ l) :
    eased c (progress k m) ≤ eased c (progress l m) :=
  eased_mono c (progress_mono m h)

/-- Settles O60: the ends are the ends of progress, the order is that of progress and of the easing, and the bound is
the order up to the last frame. -/
theorem easedValuesRise : Obligations.EasedValuesRise := fun c m hm _ =>
  have last : eased c (progress m m) = 65536 := eased_progress_self c hm
  ⟨eased_progress_zero c m, last, fun _ _ hkl hlm =>
    ⟨eased_progress_mono c m hkl, (eased_progress_mono c m hlm).trans_eq last⟩⟩

end Sys2Proof.Machine
end

section
/-!
PROOFS. The dropping of a load (R75, R76): CANCEL_LOAD, LOAD_TIMEOUT and the countdown of a channel frame event. The
load context has its own work at that event; every block whose work comes after it keeps the context, the flag
LOAD_TIMEOUT and the bank the load left EMPTY.
-/

namespace Sys2Proof.Machine

/-! ### Flags and banks -/

theorem Reporter.flag_raise_self (r : Reporter) (f : Flag) : (r.raise f).flag f = true := by
  cases f <;> simp [Reporter.flag, Flag.word, Flag.bit]

theorem Reporter.flag_raise_of_ne (r : Reporter) {f g : Flag} (h : f.bit ≠ g.bit) :
    (r.raise f).flag g = r.flag g := by
  simp [Reporter.flag, Flag.word, BitVec.getLsbD_twoPow, h]

theorem Reporter.flag_raiseIf_of_ne (r : Reporter) (b : Bool) {f g : Flag} (h : f.bit ≠ g.bit) :
    (r.raiseIf b f).flag g = r.flag g := by
  cases b
  · rfl
  · exact r.flag_raise_of_ne h

@[simp] theorem PromoList.bank_setBank_same (p : PromoList) (b : BankId) (v : Bank) : (p.setBank b v).bank b = v := by
  cases b <;> rfl

theorem PromoList.bank_setBank_ne (p : PromoList) (v : Bank) :
    ∀ {b x : BankId}, x ≠ b → (p.setBank b v).bank x = p.bank x
  | .bank0, .bank1, _ => rfl
  | .bank1, .bank0, _ => rfl
  | .bank0, .bank0, h => absurd rfl h
  | .bank1, .bank1, h => absurd rfl h

@[simp] theorem PromoList.setBank_play (p : PromoList) (b : BankId) (v : Bank) : (p.setBank b v).play = p.play := by
  cases b <;> rfl

/-! ### A bank left aside by the Promo List -/

/-- A bank EMPTY and out of the play position: what a dropped load leaves. -/
def PromoList.BankAside (p : PromoList) (b : BankId) : Prop := p.bank b = .empty ∧ p.play.bank ≠ some b

/-- The banks left aside stay so. -/
def PromoList.KeepsAside (p q : PromoList) : Prop := ∀ b, p.BankAside b → q.BankAside b

theorem PromoList.KeepsAside.refl (p : PromoList) : p.KeepsAside p := fun _ h => h

theorem PromoList.KeepsAside.trans {p q r : PromoList} (h : p.KeepsAside q) (h' : q.KeepsAside r) : p.KeepsAside r :=
  fun b hb => h' b (h b hb)

/-- A bank's state changed, where it is not one left aside. -/
theorem PromoList.keepsAside_setBankState (p : PromoList) {b : BankId} (h : ¬ p.BankAside b) (st : BankState) :
    p.KeepsAside (p.setBankState b st) := fun x hx => by
  have other : x ≠ b := fun e => h (e ▸ hx)
  exact ⟨(p.bank_setBank_ne _ other).trans hx.1, by simpa [PromoList.setBankState] using hx.2⟩

/-- An item of a bank started, where the bank is not one left aside. -/
theorem PromoList.keepsAside_startItem (p : PromoList) {b : BankId} (h : ¬ p.BankAside b) (index started : Nat) :
    p.KeepsAside (p.startItem b index started) := fun _ hx => ⟨hx.1, fun e => h (Option.some.inj e ▸ hx)⟩

theorem PromoList.keepsAside_setCursor (p : PromoList) (c : Cursor) : p.KeepsAside (p.setCursor c) := fun _ h => h

theorem PromoList.not_bankAside_of_play {p : PromoList} {b : BankId} (h : p.play.bank = some b) : ¬ p.BankAside b :=
  fun ha => ha.2 h

theorem PromoList.not_bankAside_of_state {p : PromoList} {b : BankId} (h : (p.bank b).state ≠ .empty) :
    ¬ p.BankAside b := fun ha => h (by rw [ha.1]; rfl)

/-- A bank that becomes PLAYING, with its first item started (R77, R80). -/
theorem PromoList.keepsAside_playBank (p : PromoList) {b : BankId} (h : (p.bank b).state = .ready) (started : Nat) :
    p.KeepsAside ((p.setBankState b .playing).startItem b 0 started) := by
  have ready : ¬ p.BankAside b := not_bankAside_of_state (by simp [h])
  have playing : ¬ (p.setBankState b .playing).BankAside b := not_bankAside_of_state (by simp [setBankState])
  exact (p.keepsAside_setBankState ready _).trans (keepsAside_startItem _ playing _ _)

theorem BankId.other_ne (b : BankId) : b.other ≠ b := by cases b <;> decide

theorem PromoList.keepsAside_successor (p : PromoList) : p.KeepsAside p.successor.1 := by
  unfold PromoList.successor
  split
  · rename_i b c hb _
    have current := not_bankAside_of_play hb
    split
    · split
      · exact p.keepsAside_startItem current _ _
      · split
        · rename_i hr
          have ready : ((p.setBankState b .spent).bank b.other).state = .ready := by
            rw [PromoList.setBankState, p.bank_setBank_ne _ b.other_ne, hr]
          exact (p.keepsAside_setBankState current _).trans (keepsAside_playBank _ ready _)
        · exact p.keepsAside_setCursor _
    · exact .refl p
  · exact .refl p

theorem PromoList.keepsAside_finish (p : PromoList) (b : BankId) (c : Cursor) : p.KeepsAside (p.finish b c).1 := by
  unfold PromoList.finish
  dsimp only
  split
  · exact p.keepsAside_setCursor _
  · split
    · split <;> exact p.keepsAside_setCursor _
    · exact p.keepsAside_setCursor _

theorem PromoList.keepsAside_count (p : PromoList) (v : PromoValidity) : p.KeepsAside (p.count v).1 := by
  unfold PromoList.count
  split
  · split
    · dsimp only
      split
      · exact p.keepsAside_finish _ _
      · exact p.keepsAside_setCursor _
    · exact .refl p
  · exact .refl p

theorem PromoList.keepsAside_countReleasing (p : PromoList) (v : PromoValidity) :
    p.KeepsAside (p.countReleasing v) := by
  unfold PromoList.countReleasing
  split
  · split
    · exact p.keepsAside_setCursor _
    · exact .refl p
  · exact .refl p

theorem PromoList.keepsAside_work (p : PromoList) (st : EngineState) (carries : Bool) (v : PromoValidity) :
    p.KeepsAside (p.work st carries v).1 := by
  unfold PromoList.work
  split
  · cases carries with
    | true => exact p.keepsAside_successor.trans (PromoList.keepsAside_count _ v)
    | false => exact p.keepsAside_count v
  · split
    · exact p.keepsAside_countReleasing v
    · exact .refl p

/-- A junction end spends the PLAYING bank and leaves an EMPTY one (R85). -/
theorem PromoList.keepsAside_endPlay (p : PromoList) : p.KeepsAside p.endPlay := fun b hb => by
  have spent : p.endPlay.bank b = (p.bank b).afterJunction := by cases b <;> rfl
  exact ⟨by rw [spent, hb.1]; rfl, nofun⟩

theorem ChannelState.keepsAside_turn (c : ChannelState) (v : PromoValidity) : c.promo.KeepsAside (c.turn v).list := by
  have worked (carries : Bool) := c.promo.keepsAside_work c.engine.state carries v
  unfold ChannelState.turn
  dsimp only
  split
  · split
    · exact worked false
    · exact worked true
  · exact worked true

/-! ### What the blocks of a channel keep of a load -/

/-- The load context, the flag LOAD_TIMEOUT and the banks left aside stand. -/
structure ChannelState.KeepsLoad (c d : ChannelState) : Prop where
  context : d.parser.context = c.parser.context
  flag : d.reporter.flag .loadTimeout = c.reporter.flag .loadTimeout
  aside : c.promo.KeepsAside d.promo

namespace ChannelState.KeepsLoad

theorem refl (c : ChannelState) : c.KeepsLoad c := ⟨rfl, rfl, .refl _⟩

theorem trans {c d e : ChannelState} (h : c.KeepsLoad d) (h' : d.KeepsLoad e) : c.KeepsLoad e :=
  ⟨h'.context.trans h.context, h'.flag.trans h.flag, h.aside.trans h'.aside⟩

/-- The parser and the Promo List untouched. -/
theorem of_flag {c d : ChannelState} (hp : d.parser = c.parser) (hl : d.promo = c.promo)
    (hf : d.reporter.flag .loadTimeout = c.reporter.flag .loadTimeout) : c.KeepsLoad d :=
  ⟨by rw [hp], hf, hl ▸ .refl _⟩

/-- The parser, the Promo List and the reporter untouched. -/
theorem of_eq {c d : ChannelState} (hp : d.parser = c.parser) (hl : d.promo = c.promo)
    (hr : d.reporter = c.reporter) : c.KeepsLoad d := of_flag hp hl (by rw [hr])

theorem withList (c : ChannelState) {p : PromoList} (r : ListReport) (h : c.promo.KeepsAside p) :
    c.KeepsLoad (c.withList p r) := ⟨rfl, c.reporter.flag_raiseIf_of_ne _ (by decide), h⟩

theorem markIf (c : ChannelState) (b : Bool) : c.KeepsLoad (c.markIf b) := by
  cases b
  · exact .refl c
  · exact of_eq rfl rfl rfl

theorem countItem (c : ChannelState) (v : PromoValidity) : c.KeepsLoad (c.countItem v) :=
  (withList c _ (c.promo.keepsAside_count v)).trans (markIf _ _)

theorem runOn (c : ChannelState) (v : PromoValidity) : c.KeepsLoad (c.runOn v).1 :=
  have moved : c.KeepsLoad (c.withEngine (c.turn v).result.engine) := of_eq rfl rfl rfl
  have listed := withList (c.withEngine (c.turn v).result.engine) (c.turn v).report (c.keepsAside_turn v)
  moved.trans (listed.trans (markIf _ _))

theorem afterEnd (c : ChannelState) (l : LastJunction) : c.KeepsLoad (c.afterEnd ChannelState.spendBank l) :=
  ⟨rfl, rfl, c.promo.keepsAside_endPlay⟩

theorem fallBack (c : ChannelState) (slot : Nat) : c.KeepsLoad (c.fallBack slot) :=
  of_flag rfl rfl (c.reporter.flag_raiseIf_of_ne _ (by decide))

theorem takeLook (c : ChannelState) : c.KeepsLoad c.takeLook := of_eq rfl rfl rfl

theorem assignScalers (c : ChannelState) (g : Nat) : c.KeepsLoad (c.assignScalers g) :=
  of_flag rfl rfl (c.reporter.flag_raiseIf_of_ne _ (by decide))

theorem bankStep (c : ChannelState) (b : BankId) : c.KeepsLoad (c.bankStep b) := by
  unfold ChannelState.bankStep
  split
  · exact ⟨rfl, rfl, c.promo.keepsAside_playBank ‹_› 1⟩
  · exact of_flag rfl rfl (c.reporter.flag_raise_of_ne (by decide))

theorem startJunction (c : ChannelState) (b : BankId) : c.KeepsLoad (c.startJunction b) :=
  (bankStep c b).trans (of_eq rfl rfl rfl)

theorem compose (c : ChannelState) (rate : FrameRate) (inp : FrameInputs) (view : FrameView) :
    c.KeepsLoad (c.compose rate inp view) := of_flag rfl rfl (c.reporter.flag_raiseIf_of_ne _ (by decide))

end ChannelState.KeepsLoad

/-! ### What a channel frame event keeps of a load

Each operation of the event is followed on its own channel; another channel's blocks have no part in its load. -/

/-- One channel's load kept between two states. -/
def LoadKept (ch : Channel) (s t : State) : Prop := (s.chan ch).KeepsLoad (t.chan ch)

namespace LoadKept

section
variable {s t u : State} {ch : Channel}

theorem refl (ch : Channel) (s : State) : LoadKept ch s s := ChannelState.KeepsLoad.refl _

theorem trans (h : LoadKept ch s t) (h' : LoadKept ch t u) : LoadKept ch s u := ChannelState.KeepsLoad.trans h h'

theorem modChan {f : ChannelState → ChannelState} (h : (s.chan ch).KeepsLoad (f (s.chan ch))) :
    LoadKept ch s (s.modChan ch f) := by
  unfold LoadKept
  rw [State.chan_modChan_same]
  exact h

theorem of_channels (h : t.channels = s.channels) : LoadKept ch s t := by
  unfold LoadKept State.chan
  rw [h]
  exact .refl _

theorem setFetch (h : t.channels = s.channels) (f : FetchState) : LoadKept ch s (t.setFetch ch f) :=
  (of_channels h).trans (modChan (.of_eq rfl rfl rfl))

theorem of_agreesButGrants (h : AgreesButGrants s t) : LoadKept ch s t := by
  obtain ⟨f, -, hf⟩ := h.2.2.2.2.2.2.2 ch
  unfold LoadKept
  rw [hf]
  exact .of_eq rfl rfl rfl

end

theorem fetchArrival (ch : Channel) (slot : Nat) (s : State) : LoadKept ch s (fetchArrival ch slot s) := by
  unfold Machine.fetchArrival
  dsimp only
  split
  · exact setFetch rfl _
  · split
    · exact modChan (.of_flag rfl rfl (Reporter.flag_raiseIf_of_ne _ _ (by decide)))
    · exact setFetch rfl _

theorem withdrawFetch (ch : Channel) (s : State) : LoadKept ch s (withdrawFetch ch s) :=
  setFetch rfl .none

theorem armTest (ch : Channel) (s : State) : LoadKept ch s (armTest ch s) := by
  unfold Machine.armTest
  dsimp only
  split
  · split
    · unfold armEntry
      exact ((modChan (.of_eq rfl rfl rfl)).trans (fetchArrival _ _ _)).trans
        (of_agreesButGrants (agreesButGrants_scalerRequest _ _ _ _))
    · exact refl ch s
  · exact refl ch s

theorem missOne (ch : Channel) (o : JunctionOutcome) (s : State) (e : Entry) : LoadKept ch s (missOne ch o s e) :=
  modChan (.of_flag rfl rfl (Reporter.flag_raise_of_ne _ (by decide)))

theorem missSweep (ch : Channel) (s : State) : LoadKept ch s (missSweep ch s) := by
  have missed (es : List Entry) : ∀ s, LoadKept ch s (es.foldl (Machine.missOne ch .missedBusy) s) := by
    induction es with
    | nil => exact refl ch
    | cons e es ih => exact fun s => (missOne ch _ s e).trans (ih _)
  exact (modChan (.of_eq rfl rfl rfl)).trans (missed _ _)

theorem finishEnd (ch : Channel) (fe : FrameEnd) (s : State) : LoadKept ch s (finishEnd ch fe s) := by
  have ended (o : JunctionOutcome) : LoadKept ch s (junctionEnd ch o s) := by
    unfold junctionEnd endWith
    split
    · exact refl ch s
    · exact (((of_agreesButGrants (agreesButGrants_releaseClaim ch s)).trans (withdrawFetch ch _)).trans
        (modChan (.afterEnd _ _))).trans (armTest ch _)
  cases fe with
  | goes => exact refl ch s
  | cut o => exact ended o
  | ends o => exact ended o

theorem templateStep (ch : Channel) (s : State) : LoadKept ch s (templateStep ch s) := by
  unfold Machine.templateStep
  split
  · exact (withdrawFetch ch s).trans (modChan ((ChannelState.KeepsLoad.fallBack _ _).trans (.takeLook _)))
  · exact modChan (.takeLook _)

theorem startEvent (ch : Channel) (s : State) : LoadKept ch s (startEvent ch s).1 := by
  have granted := ((agreesButGrants_claimScalers ch (Machine.templateStep ch s)).trans
    (agreesButGrants_grantTest _)).trans
      (agreesButGrants_modRecord _ ch
        (f := ({ · with granted := (claimScalers ch (Machine.templateStep ch s)).2 })) ⟨fun _ => _, rfl⟩)
  have claimed := (templateStep ch s).trans (of_agreesButGrants granted)
  unfold Machine.startEvent
  dsimp only
  split
  · exact claimed
  · split
    · exact claimed.trans (modChan (.of_flag rfl rfl (Reporter.flag_raise_of_ne _ (by decide))))
    · exact claimed.trans (modChan ((ChannelState.KeepsLoad.assignScalers _ _).trans (.startJunction _ _)))

theorem junctionFrame (ch : Channel) (v : PromoValidity) (s : State) : LoadKept ch s (junctionFrame ch v s).1 := by
  have started := startEvent ch s
  have ran : LoadKept ch s (s.setChan ch ((s.chan ch).runOn v).1) := modChan (f := fun c => (c.runOn v).1) (.runOn _ v)
  unfold Machine.junctionFrame
  split
  · exact refl ch s
  · split
    · split
      · rename_i he
        rw [he] at started
        exact started.trans (modChan (.countItem _ v))
      · rename_i he
        rw [he] at started
        exact started.trans (finishEnd ch _ _)
    · exact refl ch s
  · split <;> rename_i he <;> rw [he] at ran
    · exact ran
    · exact ran.trans (finishEnd ch (.cut _) _)
    · exact ran.trans (finishEnd ch (.ends _) _)

theorem armWork (ch : Channel) (s : State) : LoadKept ch s (armWork ch s) := by
  have counted (p : Parser) : p.countArm.context = p.context := by
    unfold Parser.countArm
    split <;> rfl
  exact modChan ⟨counted _, rfl, .refl _⟩

theorem composerWork (ch : Channel) (inp : FrameInputs) (view : FrameView) (s : State) :
    LoadKept ch s (composerWork ch inp view s) := modChan (.compose _ _ _ _)

theorem statusWork (ch : Channel) (v : Validity) (s : State) : LoadKept ch s (statusWork ch v s) :=
  modChan (.of_flag rfl rfl rfl)

/-- All of a channel frame event after the load context's own work. -/
theorem channelFrame (ch : Channel) (inp : FrameInputs) (s : State) :
    LoadKept ch (loadWork ch (s.judge inp.promo)) (channelFrame ch inp s) :=
  ((((armWork ch _).trans (junctionFrame ch _ _)).trans ((armTest ch _).trans (missSweep ch _))).trans
    (composerWork ch _ _ _)).trans (statusWork ch _ _)

end LoadKept

/-! ### The load context's own work -/

section
variable {c : ChannelState} {x : LoadContext}

/-- The last count: the load is dropped, with LOAD_TIMEOUT (R76). -/
theorem ChannelState.countLoad_of_last (hx : c.parser.context = some x) (h : x.countdown ≤ 1) :
    c.countLoad = { c.dropLoad x with reporter := c.reporter.raise .loadTimeout } := by
  simp [ChannelState.countLoad, hx, h]

/-- A count before the last: the countdown falls, and nothing else changes (R76). -/
theorem ChannelState.countLoad_of_more (hx : c.parser.context = some x) (h : ¬ x.countdown ≤ 1) :
    c.countLoad =
      { c with parser := { c.parser with context := some { x with countdown := x.countdown - 1 } } } := by
  simp [ChannelState.countLoad, hx, h]

theorem ChannelState.countLoad_context (hx : c.parser.context = some x) :
    c.countLoad.parser.context =
      if x.countdown ≤ 1 then none else some { x with countdown := x.countdown - 1 } := by
  by_cases h : x.countdown ≤ 1
  · rw [countLoad_of_last hx h, if_pos h]
    rfl
  · rw [countLoad_of_more hx h, if_neg h]

theorem ChannelState.countLoad_flag (hx : c.parser.context = some x) :
    c.countLoad.reporter.flag .loadTimeout = (c.reporter.flag .loadTimeout || decide (x.countdown ≤ 1)) := by
  by_cases h : x.countdown ≤ 1
  · rw [countLoad_of_last hx h, decide_eq_true h, Bool.or_true]
    exact c.reporter.flag_raise_self _
  · rw [countLoad_of_more hx h, decide_eq_false h, Bool.or_false]

/-- The bank of an open load is LOADING, so the play position does not name it (R69, R71). -/
theorem ChannelState.BanksSound.play_ne (h : c.BanksSound) (hx : c.parser.context = some x) :
    c.promo.play.bank ≠ some x.bank := fun hp => by
  obtain ⟨-, hload, hplay⟩ := h
  simp only [ChannelState.LoadAgrees, hx] at hload
  have loading : (c.promo.bank x.bank).state = .loading := (hload.1 x.bank).2 rfl
  cases hc : c.promo.play.cursor with
  | none => simp [ChannelState.PlayAgrees, hp, hc] at hplay
  | some cur =>
    simp only [ChannelState.PlayAgrees, hp, hc] at hplay
    have playing : (c.promo.bank x.bank).state = .playing := (hplay.1 x.bank).2 rfl
    rw [loading] at playing
    cases playing

theorem ChannelState.countLoad_aside (hx : c.parser.context = some x) (h : x.countdown ≤ 1) (hs : c.BanksSound) :
    c.countLoad.promo.BankAside x.bank := by
  rw [countLoad_of_last hx h]
  exact ⟨c.promo.bank_setBank_same _ _, by simpa [ChannelState.dropLoad] using hs.play_ne hx⟩

end

theorem State.loadWork_judge_chan (s : State) (ch : Channel) (p : PromoFrames) :
    (loadWork ch (s.judge p)).chan ch = (s.chan ch).countLoad := State.chan_modChan_same ..

/-! ### The commands and the event -/

section
variable {s : State} {ch : Channel} {x : LoadContext}

@[simp] theorem State.taking_chan_context (s : State) (ch : Channel) :
    ((s.taking ch).chan ch).parser.context = (s.chan ch).parser.context := by
  unfold State.taking
  rw [State.modParser_chan_parser]

theorem cancelLoadBody_of_none (h : (s.chan ch).parser.context = none) : cancelLoadBody ch s = (s, .noContext) := by
  simp [cancelLoadBody, h]

theorem cancelLoadBody_of_some (h : (s.chan ch).parser.context = some x) :
    cancelLoadBody ch s = (s.modChan ch (·.dropLoad x), .ok) := by
  simp [cancelLoadBody, h]

theorem exec_cancelLoad_of_none (m : Match) (h : (s.chan ch).parser.context = none) :
    exec (.cancelLoad ch m) s = .next (s.refusing ch 0x0B .noContext m) :=
  congrArg Host.Outcome.next (take_eq_refusing (cancelLoadBody_of_none ((s.taking_chan_context ch).trans h)))

theorem exec_cancelLoad_of_some (m : Match) (h : (s.chan ch).parser.context = some x) :
    exec (.cancelLoad ch m) s = .next (((s.taking ch).modChan ch (·.dropLoad x)).answering ch 0x0B .ok m) :=
  congrArg Host.Outcome.next (take_eq_answering (cancelLoadBody_of_some ((s.taking_chan_context ch).trans h)))

/-- LOAD_TIMEOUT at the last count drops the load and sets the flag (R76). -/
theorem exec_loadTimeout_of_last (hx : (s.chan ch).parser.context = some x) (h : x.countdown ≤ 1) :
    exec (.loadTimeout ch) s =
      .next (s.modChan ch fun c => { c.dropLoad x with reporter := c.reporter.raise .loadTimeout }) := by
  have row : execLoadTimeout ch s = .next (loadWork ch s) := by simp [execLoadTimeout, hx, h]
  have work := congrArg (s.setChan ch) (ChannelState.countLoad_of_last hx h)
  exact row.trans (congrArg Host.Outcome.next work)

/-- A channel frame event counts the load once, and leaves what that count made of it (R76). -/
theorem channelFrame_counts_load (hx : (s.chan ch).parser.context = some x) (inp : FrameInputs) :
    ∃ t, exec (.channelFrameEvent ch inp) s = .next t ∧
      (t.chan ch).parser.context =
        (if x.countdown ≤ 1 then none else some { x with countdown := x.countdown - 1 }) ∧
      (t.chan ch).reporter.flag .loadTimeout =
        ((s.chan ch).reporter.flag .loadTimeout || decide (x.countdown ≤ 1)) ∧
      (x.countdown ≤ 1 → (s.chan ch).BanksSound → (t.chan ch).promo.bank x.bank = .empty) := by
  obtain ⟨context, flag, aside⟩ := LoadKept.channelFrame ch inp s
  rw [s.loadWork_judge_chan] at context flag aside
  exact ⟨channelFrame ch inp s, rfl, context.trans (ChannelState.countLoad_context hx),
    flag.trans (ChannelState.countLoad_flag hx),
    fun h hs => (aside _ (ChannelState.countLoad_aside hx h hs)).1⟩

end

/-- Settles O34: CANCEL_LOAD and the last count each drop the load by `dropLoad`; at a channel frame event the count
comes first, and every block after it keeps what the count made of the load. -/
theorem loadsAreDropped : Obligations.LoadsAreDropped := fun _ m _ =>
  ⟨exec_cancelLoad_of_none m, fun _ hx =>
    ⟨exec_cancelLoad_of_some m hx, exec_loadTimeout_of_last hx, channelFrame_counts_load hx⟩⟩

end Sys2Proof.Machine
end

section
/-!
PROOFS. The lock commands of Library Protection (R125, R126): the field check, the guard test of R124, then the locks.
LOCK_SLOT and UNLOCK_SLOT are one block at two values of the lock, and so are LOCK_ALL and UNLOCK_ALL.
-/

namespace Sys2Proof.Machine

/-! ### The taking of a common command by a manager -/

@[simp] theorem State.taking_protection (s : State) (ch : Channel) : (s.taking ch).protection = s.protection :=
  State.modParser_protection ..

@[simp] theorem State.taking_management (s : State) (ch : Channel) : (s.taking ch).management = s.management :=
  State.modParser_management ..

theorem ifManager_of_manager {s : State} {ch : Channel} (body : State → State × ResultCode)
    (h : s.management.get ch = true) : ifManager ch body s = body s := if_pos h

section
variable {ch : Channel} {kind : Nat} {m : Match} {body : State → State × ResultCode} {s t : State} {code : ResultCode}

/-- A common command from a manager: the owning block acts on the disarmed state, and its code is answered (R167). -/
theorem take_ifManager_eq_answering (hm : s.management.get ch = true) (h : body (s.taking ch) = (t, code)) :
    take ch kind m (ifManager ch body) s = t.answering ch kind code m :=
  take_eq_answering ((ifManager_of_manager body (by rwa [s.taking_management])).trans h)

/-- A common command from a manager whose owning block changes nothing is refused. -/
theorem take_ifManager_eq_refusing (hm : s.management.get ch = true) (h : body (s.taking ch) = (s.taking ch, code)) :
    take ch kind m (ifManager ch body) s = s.refusing ch kind code m :=
  take_ifManager_eq_answering hm h

end

/-! ### The guard test (R124) -/

/-- The guard lets a change pass: OPEN, or GUARDED with LIBGUARD not asserted. -/
def LibraryProtection.GuardPasses (p : LibraryProtection) : Prop :=
  p.guardState = .opened ∨ (p.guardState = .guarded ∧ p.libguard = false)

theorem LibraryProtection.guardTest_of_passes {p : LibraryProtection} (h : p.GuardPasses) : p.guardTest = none := by
  rcases h with hopen | ⟨hguarded, hlevel⟩
  · simp [guardTest, hopen]
  · simp [guardTest, hguarded, hlevel]

theorem LibraryProtection.guardTest_of_not_passes {p : LibraryProtection} (h : ¬ p.GuardPasses) :
    p.guardTest = some (if p.guardState = .frozen then .frozen else .guarded) := by
  cases hg : p.guardState with
  | opened => exact absurd (.inl hg) h
  | guarded =>
    have asserted : p.libguard = true := by
      by_contra hl
      exact h (.inr ⟨hg, by simpa using hl⟩)
    simp [guardTest, hg, asserted]
  | frozen => simp [guardTest, hg]

theorem guarded_of_passes {s : State} (body : State → State × ResultCode) (h : s.protection.GuardPasses) :
    guarded body s = body s := by
  simp [guarded, LibraryProtection.guardTest_of_passes h]

theorem guarded_of_not_passes {s : State} (body : State → State × ResultCode) (h : ¬ s.protection.GuardPasses) :
    guarded body s = (s, if s.protection.guardState = .frozen then .frozen else .guarded) := by
  simp [guarded, LibraryProtection.guardTest_of_not_passes h]

/-! ### The numbers of the stored slots -/

theorem storedIndex_of_outside {slot : Nat} (h : slot < 1 ∨ 32 < slot) : storedIndex slot = none :=
  dif_neg (by omega)

@[simp] theorem storedIndex_succ (i : SlotIndex) : storedIndex (i.val + 1) = some i := by
  simp [storedIndex, i.isLt]

theorem exists_slotIndex {slot : Nat} (h : 1 ≤ slot) (h' : slot ≤ 32) : ∃ i : SlotIndex, slot = i.val + 1 :=
  ⟨⟨slot - 1, by omega⟩, (Nat.sub_add_cancel h).symm⟩

/-! ### The taking of the lock commands -/

/-- The taken packet with the locks replaced, answered OK. -/
def State.locking (s : State) (ch : Channel) (v : Vector Bool 32) (kind : Nat) (m : Match) : State :=
  { s.taking ch with protection := { s.protection with locks := v } }.answering ch kind .ok m

section
variable {s : State} {ch : Channel} {slot : Nat} (kind : Nat) (m : Match) (v : Bool)

/-- The field check comes first, whatever the guard (R125). -/
theorem take_lock_of_outside (hm : s.management.get ch = true) (h : slot < 1 ∨ 32 < slot) :
    take ch kind m (ifManager ch (lockBody slot v)) s = s.refusing ch kind .badField m :=
  take_ifManager_eq_refusing hm (by simp [lockBody, storedIndex_of_outside h])

theorem lockBody_succ (i : SlotIndex) (s : State) :
    lockBody (i.val + 1) v s = guarded (fun s => setLocks (s.protection.locks.set i.val v i.isLt) s) s := by
  simp [lockBody]

/-- A guarded body of a manager is refused with the guard's code where the guard does not let it pass (R124). -/
theorem take_guarded_of_not_passes {body : State → State × ResultCode} (hm : s.management.get ch = true)
    (hp : ¬ s.protection.GuardPasses) :
    take ch kind m (ifManager ch (guarded body)) s =
      s.refusing ch kind (if s.protection.guardState = .frozen then .frozen else .guarded) m :=
  take_ifManager_eq_refusing hm
    ((guarded_of_not_passes body (by rwa [s.taking_protection])).trans (by rw [s.taking_protection]))

/-- A guarded replacement of the locks by a manager, where the guard lets it pass. -/
theorem take_setLocks_of_passes (locks : State → Vector Bool 32) (hm : s.management.get ch = true)
    (hp : s.protection.GuardPasses) :
    take ch kind m (ifManager ch (guarded fun s => setLocks (locks s) s)) s =
      s.locking ch (locks (s.taking ch)) kind m := by
  have passed := guarded_of_passes (s := s.taking ch) (fun s => setLocks (locks s) s) (by rwa [s.taking_protection])
  exact take_ifManager_eq_answering hm (passed.trans (by simp [setLocks]))

theorem take_lock_of_not_passes (hm : s.management.get ch = true) (hp : ¬ s.protection.GuardPasses)
    (h : 1 ≤ slot) (h' : slot ≤ 32) :
    take ch kind m (ifManager ch (lockBody slot v)) s =
      s.refusing ch kind (if s.protection.guardState = .frozen then .frozen else .guarded) m := by
  obtain ⟨i, rfl⟩ := exists_slotIndex h h'
  rw [funext (lockBody_succ v i)]
  exact take_guarded_of_not_passes kind m hm hp

theorem take_lock_of_passes (hm : s.management.get ch = true) (hp : s.protection.GuardPasses) (i : SlotIndex)
    (h : slot = i.val + 1) :
    take ch kind m (ifManager ch (lockBody slot v)) s =
      s.locking ch (s.protection.locks.set i.val v i.isLt) kind m := by
  subst h
  rw [funext (lockBody_succ v i), ← s.taking_protection ch]
  exact take_setLocks_of_passes kind m (fun s => s.protection.locks.set i.val v i.isLt) hm hp

end

/-! ### The protected set in MODE INDIVIDUAL (R123) -/

/-- With every lock at one value, the protected set is every stored slot or none. -/
theorem LibraryProtection.protects_replicate {p : LibraryProtection} (h : p.record.mode = .individual) (v : Bool)
    (i : SlotIndex) : protects { p with locks := Vector.replicate 32 v } i = v := by
  simp [protects, h, Vector.get]

/-- Settles O43: the field check of `lockBody` precedes `guarded`, which refuses with the guard's code or runs
`setLocks`; both values of the lock go through the same lemmas. -/
theorem lockCommandsChangeTheLocks : Obligations.LockCommandsChangeTheLocks := by
  intro ch m slot s hm
  refine ⟨fun outside => ⟨?_, ?_⟩, fun hp => ⟨fun h h' => ⟨?_, ?_⟩, ?_, ?_⟩, fun hp => ⟨fun i h => ⟨?_, ?_⟩, ?_, ?_⟩,
    fun hi i => ⟨LibraryProtection.protects_replicate hi true i, LibraryProtection.protects_replicate hi false i⟩⟩
    <;> refine congrArg Host.Outcome.next ?_
  · exact take_lock_of_outside 0x24 m true hm outside
  · exact take_lock_of_outside 0x25 m false hm outside
  · exact take_lock_of_not_passes 0x24 m true hm hp h h'
  · exact take_lock_of_not_passes 0x25 m false hm hp h h'
  · exact take_guarded_of_not_passes 0x26 m hm hp
  · exact take_guarded_of_not_passes 0x27 m hm hp
  · exact take_lock_of_passes 0x24 m true hm hp i h
  · exact take_lock_of_passes 0x25 m false hm hp i h
  · exact take_setLocks_of_passes 0x26 m (fun _ => .replicate 32 true) hm hp
  · exact take_setLocks_of_passes 0x27 m (fun _ => .replicate 32 false) hm hp

end Sys2Proof.Machine
end

section
/-!
PROOFS. What an operation of one channel leaves alone (R167, R172): the words `State.ChannelStands`,
`State.ChannelGranted` and `State.OthersKept` of the statements, shown to compose, and shown once for each operation the
channel commands and the channel frame event are made of.
-/

namespace Sys2Proof.Machine

/-! ### A channel that stands or is granted its request -/

/-- A channel and its claim stand, or its waiting request has been granted in full (R92). -/
def State.StandsOrGranted (c : Channel) (s t : State) : Prop := State.ChannelStands c s t ∨ State.ChannelGranted c s t

theorem State.ChannelStands.refl (c : Channel) (s : State) : State.ChannelStands c s s := ⟨rfl, rfl, .rfl⟩

theorem State.ChannelStands.trans {c : Channel} {s t u : State} (h : State.ChannelStands c s t)
    (h' : State.ChannelStands c t u) : State.ChannelStands c s u := by
  obtain ⟨chan, claim, queue⟩ := h
  obtain ⟨chan', claim', queue'⟩ := h'
  exact ⟨chan'.trans chan, claim'.trans claim, queue'.trans queue⟩

/-- A grant leaves no request waiting, so that a run of grants makes at most one to a channel. -/
theorem State.StandsOrGranted.trans {c : Channel} {s t u : State} (h : State.StandsOrGranted c s t)
    (h' : State.StandsOrGranted c t u) : State.StandsOrGranted c s u := by
  rcases h with h | ⟨waiting, left, claim, chan⟩
  · obtain ⟨chan, claim, queue⟩ := h
    rcases h' with h' | ⟨waiting', left', claim', chan'⟩
    · exact .inl (.trans ⟨chan, claim, queue⟩ h')
    · refine .inr ⟨queue.mp waiting', left', ?_, ?_⟩
      · rw [claim', claim]
      · rw [chan', chan, claim]
  · rcases h' with ⟨chan', claim', queue'⟩ | ⟨waiting', -, -, -⟩
    · exact .inr ⟨waiting, fun hm => left (queue'.mp hm), claim'.trans claim, chan'.trans chan⟩
    · exact absurd waiting' left

/-- The head of the queue granted its request: it is granted, and every other channel stands (R92). -/
theorem standsOrGranted_grantTo {s : State} {x : Channel} (hx : x ∈ s.pool.queue) (c : Channel) :
    State.StandsOrGranted c s (s.grantTo x (s.pool.records.get x).requested) := by
  by_cases hc : c = x
  · subst hc
    refine .inr ⟨hx, ?_, ?_, ?_⟩
    · simp [State.grantTo_pool]
    · simp [State.grantTo_pool]
    · simp only [State.grantTo, State.modRecord, State.chan_modChan_same]
      rfl
  · refine .inl ⟨?_, ?_, ?_⟩
    · simp only [State.grantTo]
      rw [State.modRecord_chan_ne _ hc]
      rfl
    · simp [State.grantTo_pool, PerChannel.get_set_ne _ hc]
    · simp [State.grantTo_pool, hc]

theorem standsOrGranted_grantLoop (n : Nat) (s : State) (c : Channel) :
    State.StandsOrGranted c s (grantLoop n s) := by
  induction n generalizing s with
  | zero => exact .inl (.refl c s)
  | succ n ih =>
    simp only [grantLoop]
    split
    · exact .inl (.refl c s)
    · rename_i x rest hq
      split
      · exact (standsOrGranted_grantTo (by simp [hq]) c).trans (ih _)
      · exact .inl (.refl c s)

/-- The grant test leaves every channel as it stands or grants it its request (R92). -/
theorem standsOrGranted_grantTest (s : State) (c : Channel) : State.StandsOrGranted c s (grantTest s) :=
  .trans (t := { s with pool := { s.pool with queue := s.pool.ordered s.ref.sfc s.pool.queue } })
    (.inl ⟨rfl, rfl, Pool.mem_ordered⟩) (standsOrGranted_grantLoop _ _ c)

/-! ### Nothing but one channel, its claim and its fetches -/

namespace State.OthersKept

theorem refl (ch : Channel) (s : State) : State.OthersKept ch s s where
  ref := rfl
  protection := rfl
  management := rfl
  aligned := rfl
  freeCount := rfl
  pending := rfl
  stored := rfl
  volatileSlots := rfl
  operation := rfl
  storeFail := rfl
  suspended := rfl
  queued := rfl
  setAside := rfl
  others c _ := .inl (.refl c s)

theorem trans {ch : Channel} {s t u : State} (h : State.OthersKept ch s t) (h' : State.OthersKept ch t u) :
    State.OthersKept ch s u where
  ref := h'.ref.trans h.ref
  protection := h'.protection.trans h.protection
  management := h'.management.trans h.management
  aligned := h'.aligned.trans h.aligned
  freeCount := h'.freeCount.trans h.freeCount
  pending := h'.pending.trans h.pending
  stored := h'.stored.trans h.stored
  volatileSlots := h'.volatileSlots.trans h.volatileSlots
  operation := h'.operation.trans h.operation
  storeFail := h'.storeFail.trans h.storeFail
  suspended := h'.suspended.trans h.suspended
  queued := h'.queued.trans h.queued
  setAside := h'.setAside.trans h.setAside
  others c hc := State.StandsOrGranted.trans (h.others c hc) (h'.others c hc)

variable {ch : Channel} {s t : State}

theorem modChan (ch : Channel) (f : ChannelState → ChannelState) (s : State) :
    State.OthersKept ch s (s.modChan ch f) :=
  { refl ch s with others := fun c hc => .inl ⟨s.chan_modChan_ne hc f, rfl, .rfl⟩ }

theorem modReporter (ch : Channel) (f : Reporter → Reporter) (s : State) :
    State.OthersKept ch s (s.modReporter ch f) := modChan ch _ s

theorem modParser (ch : Channel) (f : Parser → Parser) (s : State) : State.OthersKept ch s (s.modParser ch f) :=
  modChan ch _ s

theorem modRecord (ch : Channel) (f : JunctionRecord → JunctionRecord) (s : State) :
    State.OthersKept ch s (s.modRecord ch f) := modChan ch _ s

theorem setFetch (ch : Channel) (f : FetchState) (s : State) : State.OthersKept ch s (s.setFetch ch f) :=
  modChan ch _ s

/-- The channel's claim changed: its record, and its place in the request queue. -/
theorem claim (r : Request) {q : List Channel} (hq : ∀ c, c ≠ ch → (c ∈ q ↔ c ∈ s.pool.queue)) :
    State.OthersKept ch s { s with pool := { records := s.pool.records.set ch r, queue := q } } :=
  { refl ch s with others := fun c hc => .inl ⟨rfl, PerChannel.get_set_ne _ hc r, hq c hc⟩ }

/-- The channel's fetches changed. -/
theorem fetches {q a : List Fetch} (hq : q.filter (·.channel ≠ ch) = s.library.fetchQueue.filter (·.channel ≠ ch))
    (ha : a.filter (·.channel ≠ ch) = s.library.setAside.filter (·.channel ≠ ch)) :
    State.OthersKept ch s { s with library := { s.library with fetchQueue := q, setAside := a } } :=
  { refl ch s with queued := hq, setAside := ha }

theorem of_grants (h : AgreesButGrants s t) (hc : ∀ c, c ≠ ch → State.StandsOrGranted c s t) :
    State.OthersKept ch s t := by
  obtain ⟨ref, library, protection, management, aligned, freeCount, pending, -⟩ := h
  exact
    { ref := ref, protection := protection, management := management, aligned := aligned, freeCount := freeCount,
      pending := pending, stored := by rw [library], volatileSlots := by rw [library], operation := by rw [library],
      storeFail := by rw [library], suspended := by rw [library], queued := by rw [library],
      setAside := by rw [library], others := hc }

theorem grantTest (ch : Channel) (s : State) : State.OthersKept ch s (grantTest s) :=
  of_grants (agreesButGrants_grantTest s) fun c _ => standsOrGranted_grantTest s c

theorem scalerRequest (ch : Channel) (n : Nat) (start : FrameValue) (s : State) :
    State.OthersKept ch s (scalerRequest ch n start s) := by
  unfold Machine.scalerRequest
  split
  · exact claim _ fun _ _ => .rfl
  · exact (claim { state := .waiting, requested := n, start := start, granted := 0 }
      (q := s.pool.queue ++ [ch]) fun c hc => by simp [hc]).trans (grantTest ch _)

theorem releaseClaim (ch : Channel) (s : State) : State.OthersKept ch s (releaseClaim ch s) :=
  (claim .none (q := s.pool.queue.filter (· ≠ ch)) fun c hc => by simp [hc]).trans (grantTest ch _)

theorem claimScalers (ch : Channel) (s : State) : State.OthersKept ch s (claimScalers ch s).1 := by
  unfold Machine.claimScalers
  dsimp only
  split
  · exact refl ch s
  · exact claim _ fun c hc => by simp [hc]
  · exact refl ch s

theorem withdrawFetch (ch : Channel) (s : State) : State.OthersKept ch s (withdrawFetch ch s) :=
  (fetches (by simp) (by simp)).trans (setFetch ch .none _)

theorem fetchArrival (ch : Channel) (slot : Nat) (s : State) : State.OthersKept ch s (fetchArrival ch slot s) := by
  unfold Machine.fetchArrival
  dsimp only
  split
  · exact (fetches (q := s.library.fetchQueue) rfl (by simp)).trans (setFetch ch .setAside _)
  · split
    · unfold serveFetch
      exact modChan ch _ s
    · exact (fetches (a := s.library.setAside) (by simp) rfl).trans (setFetch ch .queued _)

/-! ### Arming, misses and junction ends -/

theorem armTest (ch : Channel) (s : State) : State.OthersKept ch s (armTest ch s) := by
  unfold Machine.armTest
  dsimp only
  split
  · split
    · exact ((modChan ch _ s).trans (fetchArrival ch _ _)).trans (scalerRequest ch _ _ _)
    · exact refl ch s
  · exact refl ch s

theorem missUnless (ch : Channel) (o : JunctionOutcome) (keep : Entry → Bool) (s : State) :
    State.OthersKept ch s (missUnless ch o keep s) := by
  have missed (es : List Entry) : ∀ s, State.OthersKept ch s (es.foldl (Machine.missOne ch o) s) := by
    induction es with
    | nil => exact refl ch
    | cons e es ih => exact fun s => (modReporter ch _ s).trans (ih _)
  exact (modChan ch _ s).trans (missed _ _)

theorem missSweep (ch : Channel) (s : State) : State.OthersKept ch s (missSweep ch s) := missUnless ch _ _ s

theorem endWith (ch : Channel) (o : JunctionOutcome) (lists : ChannelState → ChannelState) (s : State) :
    State.OthersKept ch s (endWith ch o lists s) := by
  unfold Machine.endWith
  split
  · exact refl ch s
  · exact (((releaseClaim ch s).trans (withdrawFetch ch _)).trans (modChan ch _ _)).trans (armTest ch _)

theorem finishEnd (ch : Channel) (fe : FrameEnd) (s : State) : State.OthersKept ch s (finishEnd ch fe s) := by
  cases fe with
  | goes => exact refl ch s
  | cut o => exact endWith ch o _ s
  | ends o => exact endWith ch o _ s

/-! ### The start event and the junction's work -/

theorem templateStep (ch : Channel) (s : State) : State.OthersKept ch s (templateStep ch s) := by
  unfold Machine.templateStep
  split
  · exact (withdrawFetch ch s).trans (modChan ch _ _)
  · exact modChan ch _ s

theorem startEvent (ch : Channel) (s : State) : State.OthersKept ch s (startEvent ch s).1 := by
  have claimed := (((templateStep ch s).trans (claimScalers ch _)).trans (grantTest ch _)).trans
    (modRecord ch ({ · with granted := (Machine.claimScalers ch (Machine.templateStep ch s)).2 }) _)
  unfold Machine.startEvent
  dsimp only
  split
  · exact claimed
  · split
    · exact claimed.trans (modReporter ch (·.raise .missed) _)
    · dsimp only
      exact claimed.trans (modChan ch _ _)

theorem junctionFrame (ch : Channel) (v : PromoValidity) (s : State) :
    State.OthersKept ch s (junctionFrame ch v s).1 := by
  have started := startEvent ch s
  have ran : State.OthersKept ch s (s.setChan ch ((s.chan ch).runOn v).1) := modChan ch (fun c => (c.runOn v).1) s
  unfold Machine.junctionFrame
  split
  · exact refl ch s
  · split
    · split
      · rename_i he
        rw [he] at started
        exact started.trans (modChan ch (·.countItem v) _)
      · rename_i he
        rw [he] at started
        exact started.trans (finishEnd ch _ _)
    · exact refl ch s
  · split <;> rename_i he <;> rw [he] at ran
    · exact ran
    · exact ran.trans (finishEnd ch (.cut _) _)
    · exact ran.trans (finishEnd ch (.ends _) _)

theorem engineWork (ch : Channel) (s : State) : State.OthersKept ch s (engineWork ch s) := by
  unfold Machine.engineWork
  dsimp only
  split
  · split
    · exact (startEvent ch s).trans (finishEnd ch _ _)
    · exact refl ch s
  · exact (modChan ch _ s).trans (finishEnd ch _ _)

theorem composerWork (ch : Channel) (inp : FrameInputs) (view : FrameView) (s : State) :
    State.OthersKept ch s (composerWork ch inp view s) := modChan ch (·.compose s.ref.rate inp view) s

theorem statusWork (ch : Channel) (v : Validity) (s : State) : State.OthersKept ch s (statusWork ch v s) := by
  unfold Machine.statusWork
  exact modChan ch _ s

/-- All of a channel frame event after the promo inputs have been judged. -/
theorem channelFrame (ch : Channel) (inp : FrameInputs) (s : State) :
    State.OthersKept ch (s.judge inp.promo) (channelFrame ch inp s) :=
  (((((modChan ch (·.countLoad) _).trans (modParser ch (·.countArm) _)).trans (junctionFrame ch _ _)).trans
    ((armTest ch _).trans (missSweep ch _))).trans (composerWork ch _ _ _)).trans (statusWork ch _ _)

theorem channelReset (ch : Channel) (s : State) : State.OthersKept ch s (channelReset ch s) :=
  ((modChan ch _ s).trans (releaseClaim ch _)).trans (withdrawFetch ch _)

/-! ### The bodies of the channel commands -/

theorem take {kind : Nat} {m : Match} {body : State → State × ResultCode}
    (h : State.OthersKept ch (s.taking ch) (body (s.taking ch)).1) : State.OthersKept ch s (take ch kind m body s) :=
  ((modParser ch _ s).trans h).trans (modReporter ch (·.append _) _)

theorem placeEntry (ch : Channel) (e : Entry) (s : State) : State.OthersKept ch s (placeEntry ch e s).1 := by
  unfold Machine.placeEntry
  dsimp only
  split
  · exact refl ch s
  · split
    · exact refl ch s
    · split
      · exact refl ch s
      · exact (modChan ch _ s).trans (armTest ch _)

theorem scheduleBody (ch : Channel) (start : FrameValue) (f : InsertFields) (s : State) :
    State.OthersKept ch s (scheduleBody ch start f s).1 := by
  unfold Machine.scheduleBody
  dsimp only
  split
  · exact refl ch s
  · split
    · exact refl ch s
    · exact placeEntry ch _ s

theorem cueBody (ch : Channel) (offset : Nat) (f : InsertFields) (s : State) :
    State.OthersKept ch s (cueBody ch offset f s).1 := by
  unfold Machine.cueBody
  split
  · exact refl ch s
  · split
    · exact refl ch s
    · exact placeEntry ch _ s

theorem deleteBody (ch : Channel) (start : FrameValue) (s : State) :
    State.OthersKept ch s (deleteBody ch start s).1 := by
  unfold Machine.deleteBody
  split
  · dsimp only
    exact modChan ch _ s
  · exact refl ch s

theorem clearScheduleBody (ch : Channel) (s : State) : State.OthersKept ch s (clearScheduleBody ch s).1 := by
  unfold Machine.clearScheduleBody
  dsimp only
  exact modChan ch _ s

theorem setToleranceBody (ch : Channel) (v : Nat) (s : State) : State.OthersKept ch s (setToleranceBody ch v s).1 := by
  unfold Machine.setToleranceBody
  dsimp only
  exact modChan ch _ s

theorem clearEventsBody (ch : Channel) (mask : BitVec 16) (s : State) :
    State.OthersKept ch s (clearEventsBody ch mask s).1 := modReporter ch (·.clearMask mask) s

theorem endBody (ch : Channel) (s : State) : State.OthersKept ch s (endBody ch s).1 := by
  unfold Machine.endBody
  split
  case h_1 | h_2 | h_3 => dsimp only; exact modChan ch _ s
  all_goals exact refl ch s

theorem extendBody (ch : Channel) (s : State) : State.OthersKept ch s (extendBody ch s).1 := by
  unfold Machine.extendBody
  split
  case h_1 => dsimp only; exact modChan ch _ s
  all_goals exact refl ch s

theorem abortBody (ch : Channel) (s : State) : State.OthersKept ch s (abortBody ch s).1 := by
  unfold Machine.abortBody
  split
  · exact refl ch s
  · exact (modChan ch _ s).trans (endWith ch _ _ _)

theorem openBankBody (ch : Channel) (bank count chain : Nat) (s : State) :
    State.OthersKept ch s (openBankBody ch bank count chain s).1 := by
  unfold Machine.openBankBody
  split
  · split
    · exact refl ch s
    · split
      · exact refl ch s
      · dsimp only
        exact modChan ch _ s
  · exact refl ch s

theorem itemsBody (ch : Channel) (raw : List RawItem) (s : State) : State.OthersKept ch s (itemsBody ch raw s).1 := by
  unfold Machine.itemsBody
  split
  · exact refl ch s
  · split
    · exact refl ch s
    · split
      · exact refl ch s
      · dsimp only
        exact modChan ch _ s

theorem cancelLoadBody (ch : Channel) (s : State) : State.OthersKept ch s (cancelLoadBody ch s).1 := by
  unfold Machine.cancelLoadBody
  split
  · exact refl ch s
  · dsimp only
    exact modChan ch _ s

theorem setUnitBody (ch : Channel) (u : RawUnit) (s : State) : State.OthersKept ch s (setUnitBody ch u s).1 := by
  unfold Machine.setUnitBody
  split
  · exact refl ch s
  · dsimp only
    exact modParser ch _ s

theorem readbackBody (ch : Channel) (target a b : Nat) (s : State) :
    State.OthersKept ch s (readbackBody ch target a b s).1 := by
  unfold Machine.readbackBody
  split
  · dsimp only
    exact modReporter ch _ s
  · dsimp only
    exact modReporter ch _ s
  · exact refl ch s

theorem resetArmBody (ch : Channel) (scope : Nat) (s : State) : State.OthersKept ch s (resetArmBody ch scope s).1 := by
  unfold Machine.resetArmBody
  split
  · exact refl ch s
  · split
    · exact refl ch s
    · dsimp only
      exact modParser ch _ s

/-- A RESET that is not of PART scope reaches its channel alone (R172). -/
theorem resetBody (ch : Channel) (before : Option ResetArm) {scope : Nat} (hs : scope ≠ 1) (s : State) :
    State.OthersKept ch s (resetBody ch before scope s).1 := by
  unfold Machine.resetBody
  split
  · exact refl ch s
  · rename_i sc hsc
    split
    · exact refl ch s
    · split
      · exact refl ch s
      · cases sc with
        | channel => exact channelReset ch s
        | part =>
          unfold scopeOf at hsc
          split at hsc <;> simp_all

theorem badCommand (ch : Channel) (kind : Nat) (m : Match) (s : State) :
    State.OthersKept ch s (badCommand ch kind m s) := take (modParser ch ({ · with skip := true }) _)

/-- A channel command acts on its own channel (R167). -/
theorem runCommand (ch : Channel) (m : Match) {c : Command} (hc : c.ofChannel = true) (s : State) :
    State.OthersKept ch s (runCommand ch m c s) := by
  cases c with
  | schedule start f => exact take (scheduleBody ch start f _)
  | cue offset f => exact take (cueBody ch offset f _)
  | delete start => exact take (deleteBody ch start _)
  | clearSchedule => exact take (clearScheduleBody ch _)
  | setTolerance v => exact take (setToleranceBody ch v _)
  | endHold => exact take (endBody ch _)
  | extend => exact take (extendBody ch _)
  | abort => exact take (abortBody ch _)
  | openBank b n f => exact take (openBankBody ch b n f _)
  | items its =>
    change State.OthersKept ch s (takeItems ch m its s)
    unfold takeItems
    split
    · exact badCommand ch _ m s
    · exact take (itemsBody ch its _)
  | cancelLoad => exact take (cancelLoadBody ch _)
  | setUnit u => exact take (setUnitBody ch u _)
  | clearEvents mask => exact take (clearEventsBody ch mask _)
  | readback t a b => exact take (readbackBody ch t a b _)
  | resetArm sc => exact take (resetArmBody ch sc _)
  | reset sc => exact take (resetBody ch _ (by simpa [Command.ofChannel] using hc) _)
  | setTime | templateWrite | templateErase | protectSet | lockSlot | unlockSlot | lockAll | unlockAll | freeze
  | setManagement => cases hc

end State.OthersKept

/-! ### The rows of the commands -/

/-- The row of a command is the taking of that command by the parser of its channel. -/
theorem exec_instr (ch : Channel) (m : Match) (c : Command) (s : State) :
    exec (c.instr ch m) s = .next (runCommand ch m c s) := by cases c <;> rfl

/-- Settles O14: every channel command is a run of operations that each keep what stands outside their channel. -/
theorem channelCommandsStayInTheirChannel : Obligations.ChannelCommandsStayInTheirChannel := by
  intro ch m c s t hc he
  rw [exec_instr] at he
  cases he
  exact .runCommand ch m hc s

end Sys2Proof.Machine
end

section
/-!
PROOFS. What the commands and events do to the stored slots, the operation in flight and Library Protection, said once
(`LibraryChange`), and from it that frozen settings stay closed (R127) and that protected slots keep their content (R107).
-/

namespace Sys2Proof.Machine

/-! ### The library's own work leaves the rest of the part -/

theorem serveAll_eq (fs : List Fetch) (s : State) : serveAll fs s = { s with channels := (serveAll fs s).channels } := by
  unfold serveAll
  induction fs generalizing s with
  | nil => rfl
  | cons f fs ih =>
    rw [List.foldl_cons, ih]
    rfl

theorem applyOperation_eq (op : Operation) (s : State) :
    applyOperation op s =
      { s with library := (applyOperation op s).library, protection := (applyOperation op s).protection } := by
  cases op <;> rfl

theorem completeOperation_eq (op : Operation) (s : State) :
    completeOperation op s =
      { s with
        library := { (applyOperation op s).library with setAside := [] }
        protection := (applyOperation op s).protection, channels := (completeOperation op s).channels } := by
  unfold completeOperation
  dsimp only
  rw [serveAll_eq]
  cases op <;> rfl

/-- The library's work changes the library, the protection record and the blocks of the channels served. -/
theorem libraryWork_eq (s : State) :
    libraryWork s =
      { s with
        library := (libraryWork s).library, protection := (libraryWork s).protection
        channels := (libraryWork s).channels } := by
  unfold libraryWork
  split
  · rfl
  · dsimp only
    split
    · rfl
    · split
      · rw [completeOperation_eq]
      · rfl

/-- The notices of one SET_TIME to a channel reach that channel, its claim and its fetches (R17, R18). -/
theorem State.OthersKept.jumpChannel (s : State) (ch : Channel) : State.OthersKept ch s (jumpChannel s ch) := by
  have jumped : State.OthersKept ch s (jumpSchedule ch s) := by
    unfold jumpSchedule
    exact ((missUnless ch _ _ s).trans (modReporter ch (·.raise .timeJump) _)).trans (modChan ch _ _)
  unfold Machine.jumpChannel jumpEngine
  exact (jumped.trans (armTest ch _)).trans (modChan ch _ _)

/-! ### The stored slots, the operation in flight and Library Protection untouched -/

/-- The stored slots, the operation in flight and Library Protection stand. -/
structure LibraryKept (s t : State) : Prop where
  protection : t.protection = s.protection
  stored : t.library.stored = s.library.stored
  operation : t.library.operation = s.library.operation

namespace LibraryKept

theorem refl (s : State) : LibraryKept s s := ⟨rfl, rfl, rfl⟩

theorem trans {s t u : State} (h : LibraryKept s t) (h' : LibraryKept t u) : LibraryKept s u :=
  ⟨h'.protection.trans h.protection, h'.stored.trans h.stored, h'.operation.trans h.operation⟩

theorem of_eq {s t : State} (hp : t.protection = s.protection) (hl : t.library = s.library) : LibraryKept s t :=
  ⟨hp, by rw [hl], by rw [hl]⟩

theorem of_others {ch : Channel} {s t : State} (h : State.OthersKept ch s t) : LibraryKept s t :=
  ⟨h.protection, h.stored, h.operation⟩

theorem jumpChannel (s : State) (ch : Channel) : LibraryKept s (jumpChannel s ch) := of_others (.jumpChannel s ch)

theorem setTimeBody (v : FrameValue) (s : State) : LibraryKept s (setTimeBody v s).1 := by
  have jumps (l : List Channel) : ∀ s, LibraryKept s (l.foldl Machine.jumpChannel s) := by
    induction l with
    | nil => exact refl
    | cons ch l ih => exact fun s => (jumpChannel s ch).trans (ih _)
  have start : LibraryKept s { s with ref := { s.ref with sfc := v }, freeCount := s.freeCount + 1 } := of_eq rfl rfl
  exact (start.trans (jumps _ _)).trans (of_others (.grantTest .a _))

end LibraryKept

/-! ### What a command or event makes of them -/

/-- The changes of the stored slots, the operation in flight and Library Protection, each with what holds where it is
made; power-on apart. -/
inductive LibraryChange : State → State → Prop
  | kept {s t : State} (h : LibraryKept s t) : LibraryChange s t
  /-- The library frame event (R154). -/
  | work (s : State) : LibraryChange s (libraryWork s)
  /-- A part reset (R172). -/
  | partReset (s : State) : LibraryChange s (partReset s)
  /-- An operation accepted: one on a stored slot outside the protected set, one on the record past the guard (R107 to
  R109, R128). -/
  | start (s : State) (op : Operation) (none : s.library.operation = none)
      (outside : ∀ i, op.slot = some i → s.protection.protects i = false)
      (passed : op.slot = Option.none → s.protection.guardTest = Option.none) : LibraryChange s (startOperation op s)
  /-- The locks changed past the guard (R125, R126). -/
  | locks (s : State) (v : Vector Bool 32) (passed : s.protection.guardTest = Option.none) :
      LibraryChange s { s with protection := { s.protection with locks := v } }
  /-- FREEZE (R127). -/
  | freeze (s : State) : LibraryChange s { s with protection := { s.protection with guardState := .frozen } }
  /-- The LIBGUARD sense changed (R124). -/
  | libguard (s : State) (b : Bool) : LibraryChange s { s with protection := { s.protection with libguard := b } }

namespace LibraryChange

theorem refl (s : State) : LibraryChange s s := .kept (.refl s)

theorem of_others {ch : Channel} {s t : State} (h : State.OthersKept ch s t) : LibraryChange s t :=
  .kept (.of_others h)

theorem guarded {body : State → State × ResultCode} {s : State}
    (h : s.protection.guardTest = none → LibraryChange s (body s).1) : LibraryChange s (guarded body s).1 := by
  unfold Machine.guarded
  split
  · exact refl s
  · exact h ‹_›

theorem ifManager {ch : Channel} {body : State → State × ResultCode} {s : State} (h : LibraryChange s (body s).1) :
    LibraryChange s (ifManager ch body s).1 := by
  unfold Machine.ifManager
  split
  · exact h
  · exact refl s

theorem storeOrErase {i : SlotIndex} {op : Operation} (hop : op.slot = some i) (s : State) :
    LibraryChange s (storeOrErase i op s).1 := by
  unfold Machine.storeOrErase
  split
  · exact refl s
  · rename_i hn
    split
    · exact .kept ⟨rfl, rfl, rfl⟩
    · rename_i hp
      refine .start s op (by simpa using hn) (fun j hj => ?_) fun h => ?_
      · rw [hop] at hj
        cases hj
        simpa using hp
      · rw [hop] at h
        cases h

theorem templateWriteBody (slot : Nat) (raw : RawTemplate) (s : State) :
    LibraryChange s (templateWriteBody slot raw s).1 := by
  unfold Machine.templateWriteBody
  split
  · exact storeOrErase rfl s
  · exact .kept ⟨rfl, rfl, rfl⟩
  · exact refl s

theorem templateEraseBody (slot : Nat) (s : State) : LibraryChange s (templateEraseBody slot s).1 := by
  unfold Machine.templateEraseBody
  split
  · exact storeOrErase rfl s
  · exact .kept ⟨rfl, rfl, rfl⟩
  · exact refl s

theorem protectSetBody (r : RawProtection) (s : State) : LibraryChange s (protectSetBody r s).1 := by
  unfold Machine.protectSetBody
  split
  · exact refl s
  · refine guarded fun passed => ?_
    split
    · exact refl s
    · rename_i p _ hn
      exact .start s (.protectSet p) (by simpa using hn) (fun _ h => by cases h) fun _ => passed

theorem lockBody (slot : Nat) (v : Bool) (s : State) : LibraryChange s (lockBody slot v s).1 := by
  unfold Machine.lockBody
  split
  · exact refl s
  · exact guarded (.locks s _)

theorem lockAllBody (v : Bool) (s : State) : LibraryChange s (lockAllBody v s).1 := guarded (.locks s _)

theorem setManagementBody (flags : Byte) (s : State) : LibraryChange s (setManagementBody flags s).1 := by
  unfold Machine.setManagementBody
  dsimp only
  split
  · exact .kept (.of_eq rfl rfl)
  · exact refl s

theorem resetBody (ch : Channel) (before : Option ResetArm) (scope : Nat) (s : State) :
    LibraryChange s (resetBody ch before scope s).1 := by
  unfold Machine.resetBody
  split
  · exact refl s
  · split
    · exact refl s
    · split
      · exact refl s
      · split
        · exact of_others (.channelReset ch s)
        · exact .partReset s

end LibraryChange

/-- One such change among operations that leave the library and its protection alone. -/
def Around (s t : State) : Prop := ∃ u v, LibraryKept s u ∧ LibraryChange u v ∧ LibraryKept v t

namespace Around

variable {s t u : State}

theorem of_change (h : LibraryChange s t) : Around s t := ⟨s, t, .refl s, h, .refl t⟩

theorem of_kept (h : LibraryKept s t) : Around s t := of_change (.kept h)

theorem of_others {ch : Channel} (h : State.OthersKept ch s t) : Around s t := of_kept (.of_others h)

theorem before (h : LibraryKept s t) (h' : Around t u) : Around s u := by
  obtain ⟨v, w, hv, hc, hw⟩ := h'
  exact ⟨v, w, h.trans hv, hc, hw⟩

theorem after (h : Around s t) (h' : LibraryKept t u) : Around s u := by
  obtain ⟨v, w, hv, hc, hw⟩ := h
  exact ⟨v, w, hv, hc, hw.trans h'⟩

theorem take {ch : Channel} {kind : Nat} {m : Match} {body : State → State × ResultCode}
    (h : LibraryChange (s.taking ch) (body (s.taking ch)).1) : Around s (take ch kind m body s) :=
  before (.of_others (.modParser ch _ s)) ((of_change h).after (.of_others (.modReporter ch (·.append _) _)))

/-- A command taken is one such change. -/
theorem runCommand (ch : Channel) (m : Match) (c : Command) (s : State) : Around s (runCommand ch m c s) := by
  by_cases hc : c.ofChannel = true
  · exact of_others (.runCommand ch m hc s)
  · cases c with
    | reset sc => exact take (.resetBody ch _ sc _)
    | setTime v => exact take (.ifManager (.kept (.setTimeBody v _)))
    | templateWrite slot t => exact take (.ifManager (.templateWriteBody slot t _))
    | templateErase slot => exact take (.ifManager (.templateEraseBody slot _))
    | protectSet r => exact take (.ifManager (.protectSetBody r _))
    | lockSlot slot => exact take (.ifManager (.lockBody slot true _))
    | unlockSlot slot => exact take (.ifManager (.lockBody slot false _))
    | lockAll => exact take (.ifManager (.lockAllBody true _))
    | unlockAll => exact take (.ifManager (.lockAllBody false _))
    | freeze => exact take (.ifManager (.freeze _))
    | setManagement f => exact take (.ifManager (.setManagementBody f _))
    | schedule | cue | delete | clearSchedule | setTolerance | endHold | extend | abort | openBank | items
    | cancelLoad | setUnit | clearEvents | readback | resetArm => exact absurd rfl hc

theorem passPacket (ch : Channel) (arr : Arrival) (s : State) : LibraryKept s (passPacket ch arr s) :=
  .of_others (.modChan ch _ s)

theorem passUnlessConsumed (ch : Channel) (arr : Arrival) (b : Bool) (s : State) :
    LibraryKept s (passUnlessConsumed ch arr b s) := by
  unfold Machine.passUnlessConsumed
  split
  · exact .refl s
  · exact passPacket ch arr s

theorem takePayload (ch : Channel) (m : Match) (rest : List Nat) (s : State) : Around s (takePayload ch m rest s) := by
  unfold Machine.takePayload
  split
  · exact of_others (.badCommand ch _ m s)
  · split
    · exact of_others (.badCommand ch _ m s)
    · exact runCommand ch m _ s

theorem controlArrival (ch : Channel) (arr : Arrival) (s : State) : Around s (controlArrival ch arr s) := by
  unfold Machine.controlArrival
  dsimp only
  split
  · exact of_kept ((LibraryKept.of_others (.modReporter ch (·.raise .packetLimit) s)).trans (passPacket ch arr _))
  · have counted : LibraryKept s (s.modParser ch ({ · with packetCount := (s.chan ch).parser.packetCount + 1 })) :=
      .of_others (.modParser ch _ s)
    refine before counted ?_
    split
    · exact of_kept (passPacket ch arr _)
    · exact of_kept (passUnlessConsumed ch arr _ _)
    · exact (takePayload ch _ _ _).after (passUnlessConsumed ch arr _ _)

theorem packetWork (ch : Channel) (arr : Arrival) (s : State) : Around s (packetWork ch arr s) := by
  unfold Machine.packetWork
  split
  · exact of_change (.refl s)
  · split
    · unfold blankingArrival
      dsimp only
      have counted : LibraryKept s (if arr.first then s.modParser ch (·.newFrame) else s) := by
        split
        · exact .of_others (.modParser ch _ s)
        · exact .refl s
      split
      · exact before counted (controlArrival ch arr _)
      · exact of_kept (counted.trans (passPacket ch arr _))
      · exact of_kept (counted.trans (passPacket ch arr _))
    · exact of_kept (passPacket ch arr s)

theorem openFrame (s : State) : LibraryKept s (openFrame s) := .of_eq rfl rfl

theorem of_ite {p : Prop} [Decidable p] (h : Around s t) : Around s (if p then t else s) := by
  split
  · exact h
  · exact of_change (.refl s)

theorem ref {s t : State} (h : LibraryKept s t) (r : RefCounter) : LibraryKept s { t with ref := r } :=
  h.trans (.of_eq rfl rfl)

theorem qualifyStart (n m : Nat) (s : State) : LibraryKept s (qualifyStart n m s) := by
  unfold Machine.qualifyStart
  dsimp only
  split
  · exact ref ((ref (.refl s) _).trans (openFrame _)) _
  · exact ref (.refl s) _

theorem listWorkIf (b : Bool) (ch : Channel) (offered : PromoFrames) (v : PromoValidity) (s : State) :
    Around s (listWorkIf b ch offered v s) := by
  refine of_ite (of_kept ?_)
  have judged : LibraryKept s (s.judge offered) := .of_eq rfl rfl
  exact judged.trans (.of_others (.modChan ch (fun c => c.takeList (c.turn v)) _))

theorem composerWorkIf (b : Bool) (ch : Channel) (inp : FrameInputs) (s : State) :
    Around s (composerWorkIf b ch inp s) := by
  refine of_ite (of_kept ?_)
  have judged : LibraryKept s (s.judge inp.promo) := .of_eq rfl rfl
  exact judged.trans (.of_others (.composerWork ch _ _ _))

end Around

/-- What a command or event does to the stored slots, the operation in flight and Library Protection, power-on apart. -/
theorem exec_around {i : Instr} {s t : State} (hi : ∀ a b, i ≠ .powerOn a b) (he : exec i s = .next t) :
    Around s t := by
  have row (ch : Channel) (m : Match) (c : Command) (h : exec (c.instr ch m) s = .next t) : Around s t := by
    rw [exec_instr] at h
    cases h
    exact .runCommand ch m c s
  have engine (b : Bool) (ch : Channel) : Around s (engineWorkIf b ch s) := .of_ite (.of_others (.engineWork ch s))
  cases i
  case powerOn a b => exact absurd rfl (hi a b)
  case referenceFrameEvent =>
    cases he
    split
    · exact .of_kept (Around.ref (Around.openFrame s) _)
    · exact .of_kept (Around.openFrame s)
  case refLoss =>
    simp only [exec, execRefLoss] at he
    split at he <;> cases he
    · exact .of_kept (Around.ref (Around.openFrame s) _)
    · exact .of_change (.refl s)
  case refFrameStart =>
    simp only [exec, execRefFrameStart] at he
    split at he <;> cases he
    · exact .of_ite (.of_kept (Around.openFrame s))
    · exact .of_ite (.of_kept (Around.qualifyStart _ _ s))
  case refQualifyMiss =>
    simp only [exec, execRefQualifyMiss] at he
    split at he <;> cases he
    · exact .of_change (.refl s)
    · have missed := Around.ref (.refl s) { s.ref with qualifying := some 0 }
      split
      · exact .of_kept (missed.trans (Around.openFrame _))
      · exact .of_kept missed
  case channelFrameEvent ch inp =>
    cases he
    have judged : LibraryKept s (s.judge inp.promo) := .of_eq rfl rfl
    exact .of_kept (judged.trans (.of_others (.channelFrame ch inp s)))
  case libraryFrameEvent => cases he; exact .of_change (.work s)
  case operationComplete => cases he; exact .of_ite (.of_change (.work s))
  case fetchServed => cases he; exact .of_ite (.of_change (.work s))
  case packetArrival ch arr => cases he; exact .packetWork ch arr s
  case schedule ch m start f => exact row ch m (.schedule start f) he
  case cue ch m offset f => exact row ch m (.cue offset f) he
  case delete ch m start => exact row ch m (.delete start) he
  case clearSchedule ch m => exact row ch m .clearSchedule he
  case setTolerance ch m v => exact row ch m (.setTolerance v) he
  case endHold ch m => exact row ch m .endHold he
  case extend ch m => exact row ch m .extend he
  case abort ch m => exact row ch m .abort he
  case openBank ch m b n f => exact row ch m (.openBank b n f) he
  case items ch m its => exact row ch m (.items its) he
  case cancelLoad ch m => exact row ch m .cancelLoad he
  case setUnit ch m u => exact row ch m (.setUnit u) he
  case clearEvents ch m mask => exact row ch m (.clearEvents mask) he
  case readback ch m t a b => exact row ch m (.readback t a b) he
  case resetArm ch m sc => exact row ch m (.resetArm sc) he
  case reset ch m sc => exact row ch m (.reset sc) he
  case resetArmExpiry ch =>
    simp only [exec, execResetArmExpiry] at he
    cases he
    split
    · exact .of_ite (.of_others (.modParser ch _ s))
    · exact .of_change (.refl s)
  case setTime ch m v => exact row ch m (.setTime v) he
  case templateWrite ch m slot t => exact row ch m (.templateWrite slot t) he
  case templateErase ch m slot => exact row ch m (.templateErase slot) he
  case protectSet ch m r => exact row ch m (.protectSet r) he
  case lockSlot ch m slot => exact row ch m (.lockSlot slot) he
  case unlockSlot ch m slot => exact row ch m (.unlockSlot slot) he
  case lockAll ch m => exact row ch m .lockAll he
  case unlockAll ch m => exact row ch m .unlockAll he
  case freeze ch m => exact row ch m .freeze he
  case setManagement ch m f => exact row ch m (.setManagement f) he
  case libguardChange b => cases he; exact .of_change (.libguard s b)
  case arm ch => cases he; exact .of_others (.armTest ch s)
  case scalerGrant => cases he; exact .of_others (.grantTest .a s)
  case missedBusy ch =>
    cases he
    split
    · exact .of_change (.refl s)
    · exact .of_others (.missSweep ch s)
  case itemDurationExpiry => cases he; exact .listWorkIf _ _ _ _ s
  case gateLimitExpiry => cases he; exact .listWorkIf _ _ _ _ s
  case successorStart => cases he; exact .listWorkIf _ _ _ _ s
  case loadTimeout ch =>
    simp only [exec, execLoadTimeout] at he
    cases he
    split
    · exact .of_ite (.of_others (.modChan ch _ s))
    · exact .of_change (.refl s)
  case sourceHoldExpiry => cases he; exact .composerWorkIf _ _ _ s
  case gainRampEnd => cases he; exact .composerWorkIf _ _ _ s
  case startEvent | creditTimerExpiry | watchExpiry | endCauseTaken | squeezeMoveEnd | releaseMoveEnd
    | takeoverMoveEnd | takeoverListEnd | promoFullEnd => cases he; exact engine _ _

/-! ### The operation in flight -/

/-- The library's work on the operation in flight: it waits behind a fetch, or there is none, or it progresses, or it
completes. -/
theorem libraryWork_operation (s : State) :
    LibraryKept s (libraryWork s) ∨
      ∃ fl, s.library.operation = some fl ∧
        ((libraryWork s).protection = s.protection ∧ (libraryWork s).library.stored = s.library.stored ∧
            (libraryWork s).library.operation = some { fl with progress := fl.progress + 1 } ∧
            fl.progress + 1 < fl.op.length ∨
          (libraryWork s).protection = (applyOperation fl.op s).protection ∧
            (libraryWork s).library.stored = (applyOperation fl.op s).library.stored ∧
            (libraryWork s).library.operation = none) := by
  unfold libraryWork
  split
  · exact .inl ⟨rfl, rfl, rfl⟩
  · dsimp only
    split
    · rename_i hn
      exact .inl ⟨rfl, rfl, rfl⟩
    · rename_i fl hfl
      refine .inr ⟨fl, hfl, ?_⟩
      split
      · rw [completeOperation_eq]
        refine .inr ?_
        cases fl.op <;> exact ⟨rfl, rfl, rfl⟩
      · exact .inl ⟨rfl, rfl, rfl, by omega⟩

/-! ### The settings once frozen (R127) -/

/-- From a FROZEN guard: it stays FROZEN, the locks stand or are all set, and the record stands or is the one that was
staged. -/
def StaysFrozen (s t : State) : Prop :=
  t.protection.guardState = .frozen ∧
    (t.protection.locks = s.protection.locks ∨ t.protection.locks = Vector.replicate 32 true) ∧
    (t.protection.record = s.protection.record ∨
      ∃ p n, s.library.operation = some { op := .protectSet p, progress := n } ∧ t.protection.record = p)

theorem LibraryChange.staysFrozen {s t : State} (h : LibraryChange s t) (hf : s.protection.guardState = .frozen) :
    StaysFrozen s t := by
  have stands {u : State} (hp : u.protection = s.protection) : StaysFrozen s u :=
    ⟨by rw [hp, hf], .inl (by rw [hp]), .inl (by rw [hp])⟩
  have closed : s.protection.guardTest ≠ none := by simp [LibraryProtection.guardTest, hf]
  cases h with
  | kept h => exact stands h.protection
  | work =>
    rcases libraryWork_operation s with kept | ⟨fl, hfl, ⟨hp, -⟩ | ⟨hp, -⟩⟩
    · exact stands kept.protection
    · exact stands hp
    · obtain ⟨op, n⟩ := fl
      cases op with
      | write i x => exact stands hp
      | erase i => exact stands hp
      | protectSet p =>
        have guard : s.protection.guardState.afterCommit p = .frozen := by rw [hf]; rfl
        refine ⟨?_, .inl ?_, .inr ⟨p, n, hfl, ?_⟩⟩ <;> rw [hp]
        · exact guard
        · rfl
        · rfl
  | partReset => exact ⟨hf, .inr rfl, .inl rfl⟩
  | start op _ _ passed =>
    refine stands ?_
    unfold startOperation
    split <;> rfl
  | locks v passed => exact absurd passed closed
  | freeze => exact ⟨rfl, .inl rfl, .inl rfl⟩
  | libguard b => exact ⟨hf, .inl rfl, .inl rfl⟩

/-- Settles O13: of the changes a command makes to Library Protection, a FROZEN guard lets through the commit of the
operation in flight and the setting of the locks by a part reset. -/
theorem frozenSettingsStayClosed : Obligations.FrozenSettingsStayClosed := by
  intro i s t hf hi he
  obtain ⟨u, v, before, change, after⟩ := exec_around hi he
  have frozen := change.staysFrozen (by rw [before.protection, hf])
  unfold StaysFrozen at frozen
  rwa [before.protection, before.operation, ← after.protection] at frozen

/-! ### The content of protected slots (R107) -/

theorem startOperation_storedSlot (op : Operation) (s : State) {j : SlotIndex} (h : op.slot ≠ some j) :
    (startOperation op s).library.storedSlot j = s.library.storedSlot j := by
  unfold startOperation
  dsimp only
  split
  · rename_i i hi
    have other : i ≠ j := fun hij => h (hij ▸ hi)
    exact (storedSlot_setStored _ i j _).trans (if_neg other)
  · rfl

theorem applyOperation_storedSlot (op : Operation) (s : State) {j : SlotIndex} (h : op.slot ≠ some j) :
    (applyOperation op s).library.storedSlot j = s.library.storedSlot j := by
  cases op with
  | write i x =>
    have other : i ≠ j := fun hij => h (hij ▸ rfl)
    exact (storedSlot_setStored _ i j _).trans (if_neg other)
  | erase i =>
    have other : i ≠ j := fun hij => h (hij ▸ rfl)
    exact (storedSlot_setStored _ i j _).trans (if_neg other)
  | protectSet p => rfl

theorem StoredSlot.afterPowerOn_eq_self {v : StoredSlot} (h : v ≠ .underOperation) : v.afterPowerOn = v := by
  cases v <;> first | rfl | exact absurd rfl h

theorem LibraryChange.protected_slot {s t : State} (h : LibraryChange s t) {j : SlotIndex}
    (hs : s.library.OperationSound) (hp : s.protection.protects j = true)
    (hj : s.library.storedSlot j ≠ .underOperation) : t.library.storedSlot j = s.library.storedSlot j := by
  cases h with
  | kept h => unfold Library.storedSlot; rw [h.stored]
  | work =>
    rcases libraryWork_operation s with kept | ⟨fl, hfl, ⟨-, hst, -⟩ | ⟨-, hst, -⟩⟩
    · unfold Library.storedSlot; rw [kept.stored]
    · unfold Library.storedSlot; rw [hst]
    · have other : fl.op.slot ≠ some j := fun hslot => hj ((hs.1 j).mpr (by simp [hfl, hslot]))
      have applied := applyOperation_storedSlot fl.op s other
      unfold Library.storedSlot at applied ⊢
      rw [hst, applied]
  | partReset =>
    exact (storedSlot_slotsAfterReset _ _ _ _ _ _ _ _).trans (StoredSlot.afterPowerOn_eq_self hj)
  | start op _ outside _ =>
    exact startOperation_storedSlot op s fun hslot => by simp [outside j hslot] at hp
  | locks => rfl
  | freeze => rfl
  | libguard => rfl

/-- Settles O16: an operation starts on a slot outside the protected set alone, and completes on a slot that is
UNDER_OPERATION; no other change reaches a stored slot but a reset, which leaves one not under operation. -/
theorem protectedSlotsKeepTheirContent : Obligations.ProtectedSlotsKeepTheirContent := by
  intro i j s t hs hp hj he
  by_cases hi : ∃ a b, i = .powerOn a b
  · obtain ⟨a, b, rfl⟩ := hi
    cases he
    exact (storedSlot_slotsAfterReset _ _ _ _ _ _ _ _).trans (StoredSlot.afterPowerOn_eq_self hj)
  · obtain ⟨u, v, before, change, after⟩ := exec_around (fun a b h => hi ⟨a, b, h⟩) he
    have slot {x y : State} (h : LibraryKept x y) : y.library.storedSlot = x.library.storedSlot := by
      funext k
      unfold Library.storedSlot
      rw [h.stored]
    have sound : u.library.OperationSound := by
      unfold Library.OperationSound
      rw [slot before, before.operation]
      exact hs
    have kept := change.protected_slot sound (by rwa [before.protection]) (by rwa [slot before])
    rw [slot after, kept, slot before]

end Sys2Proof.Machine
end

section
/-!
PROOFS. The part-wide blocks that no command of one channel reaches, the queue of waiting commands, and the blocks that
the operations of a channel leave as they are.
-/

namespace Sys2Proof.Machine

/-! ### The part-wide blocks -/

/-- The part-wide blocks stand but for the pool and the fetch queues of the library. -/
structure PartStands (s t : State) : Prop where
  ref : t.ref = s.ref
  protection : t.protection = s.protection
  management : t.management = s.management
  aligned : t.aligned = s.aligned
  freeCount : t.freeCount = s.freeCount
  pending : t.pending = s.pending
  library : t.library = { s.library with fetchQueue := t.library.fetchQueue, setAside := t.library.setAside }

theorem PartStands.refl (s : State) : PartStands s s := ⟨rfl, rfl, rfl, rfl, rfl, rfl, rfl⟩

theorem PartStands.trans {s t u : State} (h : PartStands s t) (h' : PartStands t u) : PartStands s u where
  ref := h'.ref.trans h.ref
  protection := h'.protection.trans h.protection
  management := h'.management.trans h.management
  aligned := h'.aligned.trans h.aligned
  freeCount := h'.freeCount.trans h.freeCount
  pending := h'.pending.trans h.pending
  library := by rw [h'.library, h.library]

theorem State.OthersKept.partStands {ch : Channel} {s t : State} (h : State.OthersKept ch s t) : PartStands s t where
  ref := h.ref
  protection := h.protection
  management := h.management
  aligned := h.aligned
  freeCount := h.freeCount
  pending := h.pending
  library := by
    dsimp only
    rw [← h.stored, ← h.volatileSlots, ← h.operation, ← h.storeFail, ← h.suspended]

/-- The SFC replaced and the SET_TIME numbered, before its notices (R151). -/
def State.atTime (s : State) (v : FrameValue) : State :=
  { s with ref := { s.ref with sfc := v }, freeCount := s.freeCount + 1 }

theorem setTimeBody_fst (v : FrameValue) (s : State) :
    (setTimeBody v s).1 = grantTest ((noticeChannels s.freeCount).foldl jumpChannel (s.atTime v)) := rfl

theorem partStands_jumps (l : List Channel) (s : State) : PartStands s (l.foldl jumpChannel s) := by
  induction l generalizing s with
  | nil => exact .refl s
  | cons ch l ih => exact (State.OthersKept.jumpChannel s ch).partStands.trans (ih _)

/-- A SET_TIME replaces the SFC; its notices and the grant test reach the channels, their claims and their fetches. -/
theorem partStands_setTimeBody (v : FrameValue) (s : State) : PartStands (s.atTime v) (setTimeBody v s).1 :=
  (partStands_jumps _ _).trans (State.OthersKept.grantTest .a _).partStands

/-- The changes that are not the work of one channel alone. -/
inductive PartChange : State → State → Prop
  | startOperation (s : State) (op : Operation) (h : s.library.operation = none)
      (ht : ∀ i t, op = .write i t → ∃ r, templateOf r = some t) : PartChange s (startOperation op s)
  | volatileSlot (s : State) (j : Fin 8) (v : Option Template) : PartChange s { s with library := s.library.setVolatile j v }
  | storeFail (s : State) : PartChange s { s with library := { s.library with storeFail := true } }
  | libraryWork (s : State) : PartChange s (libraryWork s)
  | protection (s : State) (p : LibraryProtection) (h : p.record = s.protection.record) :
      PartChange s { s with protection := p }
  | management (s : State) (m : PerChannel Bool) (h : (m.a || m.b || m.c || m.d) = true) :
      PartChange s { s with management := m }
  | openFrame (s : State) : PartChange s (openFrame s)
  | reference (s : State) (r : RefCounter) (hs : r.sfc = s.ref.sfc)
      (h : r = s.ref.lock ∨ r = s.ref.lose ∨
        s.ref.state = .freeRun ∧ ∃ n ≤ Config.qualifyCount, r = { s.ref with qualifying := some n }) :
      PartChange s { s with ref := r }
  | setTime (s : State) (v : FrameValue) : PartChange s (setTimeBody v s).1
  | partReset (s : State) : PartChange s (partReset s)
  | powerOn (s : State) (frs1 frs0 : Bool) : PartChange s (powerOn frs1 frs0 s)
  | judge (s : State) (offered : PromoFrames) : PartChange s (s.judge offered)

/-- A change is the work of one channel, or one of the changes of the part. -/
theorem Change.one_channel_or {s t : State} (h : Change s t) :
    (∃ ch, State.OthersKept ch s t) ∨ PartChange s t := by
  cases h with
  | raise ch | record ch | append ch | clearMask ch | readback ch => exact .inl ⟨ch, .modReporter ch _ s⟩
  | disarm ch | skip ch | addressing ch | armReset ch | countArm ch | countPacket ch | newFrame ch =>
    exact .inl ⟨ch, .modParser ch _ s⟩
  | output ch | insert ch | keepEntries ch | tolerance ch | markEnd ch | reloadWatch ch | openLoad ch | appendItems ch
  | dropLoad ch | countLoad ch | takeList ch | compose ch => exact .inl ⟨ch, .modChan ch _ s⟩
  | startOperation op h ht => exact .inr (.startOperation s op h ht)
  | volatileSlot j v ht => exact .inr (.volatileSlot s j v)
  | storeFail => exact .inr (.storeFail s)
  | libraryWork => exact .inr (.libraryWork s)
  | protection p h => exact .inr (.protection s p h)
  | management m h => exact .inr (.management s m h)
  | openFrame => exact .inr (.openFrame s)
  | reference r hr hs h => exact .inr (.reference s r hs h)
  | setTime v => exact .inr (.setTime s v)
  | grantTest => exact .inl ⟨.a, .grantTest .a s⟩
  | armTest ch => exact .inl ⟨ch, .armTest ch s⟩
  | abort ch h => exact .inl ⟨ch, (State.OthersKept.modChan ch _ s).trans (.endWith ch _ _ _)⟩
  | channelReset ch => exact .inl ⟨ch, .channelReset ch s⟩
  | partReset => exact .inr (.partReset s)
  | powerOn a b => exact .inr (.powerOn s a b)
  | junctionFrame ch v => exact .inl ⟨ch, .junctionFrame ch v s⟩
  | engineWork ch => exact .inl ⟨ch, .engineWork ch s⟩
  | judge offered => exact .inr (.judge s offered)
  | status ch v => exact .inl ⟨ch, .statusWork ch v s⟩

theorem startOperation_eq (op : Operation) (s : State) :
    startOperation op s = { s with library := (startOperation op s).library } := by
  unfold startOperation
  split <;> rfl

/-! ### The queue of waiting commands -/

theorem Change.pending_eq {s t : State} (h : Change s t) : t.pending = s.pending := by
  rcases h.one_channel_or with ⟨ch, kept⟩ | part
  · exact kept.pending
  · cases part with
    | startOperation op => rw [startOperation_eq]
    | libraryWork => rw [libraryWork_eq]
    | setTime v => exact (partStands_setTimeBody v s).pending
    | volatileSlot | storeFail | protection | management | openFrame | reference | partReset | powerOn | judge => rfl

/-- Every row answers a next state. -/
theorem exec_next (i : Instr) (s : State) : ∃ t, exec i s = .next t := by
  cases i
  case refLoss =>
    simp only [exec, execRefLoss]
    split <;> exact ⟨_, rfl⟩
  case refFrameStart =>
    simp only [exec, execRefFrameStart]
    split <;> exact ⟨_, rfl⟩
  case refQualifyMiss =>
    simp only [exec, execRefQualifyMiss]
    split <;> exact ⟨_, rfl⟩
  all_goals exact ⟨_, rfl⟩

/-- Settles O2: every row answers a next state by its definition, and no change of the part touches the queue. -/
theorem everyCommandIsTaken : Obligations.EveryCommandIsTaken := by
  intro i s
  obtain ⟨t, he⟩ := exec_next i s
  exact ⟨t, he, (changes_exec he).keep (p := fun u => u.pending = s.pending) (fun _ _ h hp => h.pending_eq.trans hp) rfl⟩

/-- Settles O1: both sides are the two cases of the queue in `step`. -/
theorem stepRunsTheFrontCommand : Obligations.StepRunsTheFrontCommand := fun _ _ _ => ⟨rfl, rfl⟩

/-! ### A property of every channel's blocks -/

theorem Chans.keep {ok : Template → Prop} {p : ChannelState → Prop} (hp : ∀ c d, ChanChange ok c d → p c → p d)
    {s t : State} (h : Chans ok s t) (hs : ∀ ch, p (s.chan ch)) (ch : Channel) : p (t.chan ch) :=
  (h ch).keep hp (hs ch)

/-- A property of a channel's blocks that every change of them keeps is kept by every step. -/
theorem step_keeps_channels {p : ChannelState → Prop} (hp : ∀ c d, ChanChange (fun _ => True) c d → p c → p d)
    {s t : State} (h : step s = .next t) (hs : ∀ ch, p (s.chan ch)) (ch : Channel) : p (t.chan ch) :=
  have library : LibOk (fun _ => True) s.library := ⟨fun _ _ _ => trivial, fun _ _ _ => trivial, fun _ _ _ _ _ => trivial⟩
  (step_channels h library trivial fun _ _ _ => trivial).2.keep hp hs ch

/-! ### What the list's and the engine's work leave in a channel -/

namespace ChannelState

variable (c : ChannelState)

@[simp] theorem withList_schedule (p : PromoList) (r : ListReport) : (c.withList p r).schedule = c.schedule := rfl
@[simp] theorem withList_promo (p : PromoList) (r : ListReport) : (c.withList p r).promo = p := rfl
@[simp] theorem withList_composer (p : PromoList) (r : ListReport) : (c.withList p r).composer = c.composer := rfl
@[simp] theorem withList_parser (p : PromoList) (r : ListReport) : (c.withList p r).parser = c.parser := rfl
@[simp] theorem withList_reporter (p : PromoList) (r : ListReport) :
    (c.withList p r).reporter = c.reporter.raiseIf r.underrun .bankUnderrun := rfl
@[simp] theorem withList_fetch (p : PromoList) (r : ListReport) : (c.withList p r).fetch = c.fetch := rfl
@[simp] theorem withList_tally (p : PromoList) (r : ListReport) : (c.withList p r).tally = c.tally := rfl
@[simp] theorem withList_output (p : PromoList) (r : ListReport) : (c.withList p r).output = c.output := rfl
@[simp] theorem withList_engine_state (p : PromoList) (r : ListReport) :
    (c.withList p r).engine.state = c.engine.state := by
  unfold withList
  dsimp only
  split <;> rfl

@[simp] theorem markIf_schedule (b : Bool) : (c.markIf b).schedule = c.schedule := by cases b <;> rfl
@[simp] theorem markIf_promo (b : Bool) : (c.markIf b).promo = c.promo := by cases b <;> rfl
@[simp] theorem markIf_composer (b : Bool) : (c.markIf b).composer = c.composer := by cases b <;> rfl
@[simp] theorem markIf_parser (b : Bool) : (c.markIf b).parser = c.parser := by cases b <;> rfl
@[simp] theorem markIf_reporter (b : Bool) : (c.markIf b).reporter = c.reporter := by cases b <;> rfl
@[simp] theorem markIf_fetch (b : Bool) : (c.markIf b).fetch = c.fetch := by cases b <;> rfl
@[simp] theorem markIf_tally (b : Bool) : (c.markIf b).tally = c.tally := by cases b <;> rfl
@[simp] theorem markIf_output (b : Bool) : (c.markIf b).output = c.output := by cases b <;> rfl
@[simp] theorem markIf_engine_state (b : Bool) : (c.markIf b).engine.state = c.engine.state := by cases b <;> rfl

@[simp] theorem takeList_schedule (t : Turn) : (c.takeList t).schedule = c.schedule := by simp [takeList]
@[simp] theorem takeList_promo (t : Turn) : (c.takeList t).promo = t.list := by simp [takeList]
@[simp] theorem takeList_composer (t : Turn) : (c.takeList t).composer = c.composer := by simp [takeList]
@[simp] theorem takeList_parser (t : Turn) : (c.takeList t).parser = c.parser := by simp [takeList]
@[simp] theorem takeList_reporter (t : Turn) :
    (c.takeList t).reporter = c.reporter.raiseIf t.report.underrun .bankUnderrun := by simp [takeList]
@[simp] theorem takeList_fetch (t : Turn) : (c.takeList t).fetch = c.fetch := by simp [takeList]
@[simp] theorem takeList_tally (t : Turn) : (c.takeList t).tally = c.tally := by simp [takeList]
@[simp] theorem takeList_output (t : Turn) : (c.takeList t).output = c.output := by simp [takeList]
@[simp] theorem takeList_engine_state (t : Turn) : (c.takeList t).engine.state = c.engine.state := by simp [takeList]

@[simp] theorem countItem_schedule (v : PromoValidity) : (c.countItem v).schedule = c.schedule := by simp [countItem]
@[simp] theorem countItem_promo (v : PromoValidity) : (c.countItem v).promo = (c.promo.count v).1 := by simp [countItem]
@[simp] theorem countItem_composer (v : PromoValidity) : (c.countItem v).composer = c.composer := by simp [countItem]
@[simp] theorem countItem_parser (v : PromoValidity) : (c.countItem v).parser = c.parser := by simp [countItem]
@[simp] theorem countItem_reporter (v : PromoValidity) :
    (c.countItem v).reporter = c.reporter.raiseIf (c.promo.count v).2.underrun .bankUnderrun := by simp [countItem]
@[simp] theorem countItem_fetch (v : PromoValidity) : (c.countItem v).fetch = c.fetch := by simp [countItem]
@[simp] theorem countItem_tally (v : PromoValidity) : (c.countItem v).tally = c.tally := by simp [countItem]
@[simp] theorem countItem_output (v : PromoValidity) : (c.countItem v).output = c.output := by simp [countItem]
@[simp] theorem countItem_engine_state (v : PromoValidity) : (c.countItem v).engine.state = c.engine.state := by
  simp [countItem]

theorem runOn_fst (v : PromoValidity) : (c.runOn v).1 = (c.withEngine (c.turn v).result.engine).takeList (c.turn v) := rfl
@[simp] theorem runOn_schedule (v : PromoValidity) : (c.runOn v).1.schedule = c.schedule := by simp [runOn_fst]
@[simp] theorem runOn_promo (v : PromoValidity) : (c.runOn v).1.promo = (c.turn v).list := by simp [runOn_fst]
@[simp] theorem runOn_composer (v : PromoValidity) : (c.runOn v).1.composer = c.composer := by simp [runOn_fst]
@[simp] theorem runOn_parser (v : PromoValidity) : (c.runOn v).1.parser = c.parser := by simp [runOn_fst]
@[simp] theorem runOn_reporter (v : PromoValidity) :
    (c.runOn v).1.reporter = c.reporter.raiseIf (c.turn v).report.underrun .bankUnderrun := by simp [runOn_fst]
@[simp] theorem runOn_fetch (v : PromoValidity) : (c.runOn v).1.fetch = c.fetch := by simp [runOn_fst]
@[simp] theorem runOn_tally (v : PromoValidity) : (c.runOn v).1.tally = (c.turn v).result.engine.state.tally := by
  simp [runOn_fst]
@[simp] theorem runOn_output (v : PromoValidity) : (c.runOn v).1.output = c.output := by simp [runOn_fst]
@[simp] theorem runOn_engine_state (v : PromoValidity) :
    (c.runOn v).1.engine.state = (c.turn v).result.engine.state := by simp [runOn_fst]

@[simp] theorem bankStep_schedule (b : BankId) : (c.bankStep b).schedule = c.schedule := by
  unfold bankStep; split <;> rfl
@[simp] theorem bankStep_composer (b : BankId) : (c.bankStep b).composer = c.composer := by
  unfold bankStep; split <;> rfl
@[simp] theorem bankStep_parser (b : BankId) : (c.bankStep b).parser = c.parser := by unfold bankStep; split <;> rfl
@[simp] theorem bankStep_fetch (b : BankId) : (c.bankStep b).fetch = c.fetch := by unfold bankStep; split <;> rfl
@[simp] theorem bankStep_output (b : BankId) : (c.bankStep b).output = c.output := by unfold bankStep; split <;> rfl

@[simp] theorem startJunction_schedule (b : BankId) : (c.startJunction b).schedule = c.schedule := by simp [startJunction]
@[simp] theorem startJunction_promo (b : BankId) : (c.startJunction b).promo = (c.bankStep b).promo := by
  simp [startJunction]
@[simp] theorem startJunction_composer (b : BankId) : (c.startJunction b).composer = c.composer := by simp [startJunction]
@[simp] theorem startJunction_parser (b : BankId) : (c.startJunction b).parser = c.parser := by simp [startJunction]
@[simp] theorem startJunction_reporter (b : BankId) : (c.startJunction b).reporter = (c.bankStep b).reporter := by
  simp [startJunction]
@[simp] theorem startJunction_fetch (b : BankId) : (c.startJunction b).fetch = c.fetch := by simp [startJunction]
@[simp] theorem startJunction_output (b : BankId) : (c.startJunction b).output = c.output := by simp [startJunction]
@[simp] theorem startJunction_tally (b : BankId) :
    (c.startJunction b).tally = (c.startJunction b).engine.state.tally := rfl

@[simp] theorem assignScalers_schedule (g : Nat) : (c.assignScalers g).schedule = c.schedule := rfl
@[simp] theorem assignScalers_promo (g : Nat) : (c.assignScalers g).promo = c.promo := rfl
@[simp] theorem assignScalers_composer (g : Nat) : (c.assignScalers g).composer = c.composer := rfl
@[simp] theorem assignScalers_parser (g : Nat) : (c.assignScalers g).parser = c.parser := rfl
@[simp] theorem assignScalers_fetch (g : Nat) : (c.assignScalers g).fetch = c.fetch := rfl
@[simp] theorem assignScalers_output (g : Nat) : (c.assignScalers g).output = c.output := rfl

end ChannelState

end Sys2Proof.Machine
end

section
/-!
PROOFS. The registers every step keeps in their ranges: the parsers, the composers, the reporters and the tally lines by
the changes of one channel's blocks, the reference and the management enables by the changes of the part.
-/

namespace Sys2Proof.Machine

/-! ### The parsers (R159, R169, R171) -/

theorem Parser.Sound.of_eq {p q : Parser} (h : p.Sound) (ha : q.addressing = p.addressing)
    (hc : q.packetCount = p.packetCount) (hr : q.arm = p.arm ∨ q.arm = none) : q.Sound := by
  obtain ⟨primary, broadcast, second, mask, count, arm⟩ := h
  unfold Parser.Sound
  rw [ha, hc]
  refine ⟨primary, broadcast, second, mask, count, fun a hq => ?_⟩
  rcases hr with hr | hr
  · exact arm a (hr ▸ hq)
  · cases hr.symm.trans hq

/-- The settings SET_UNIT accepts are those a sound parser may hold (R169). -/
theorem addressingOf_sound {u : RawUnit} {a : Addressing} (h : addressingOf u = some a) :
    a.primaryId ≠ 0 ∧ a.primaryId ≠ 255 ∧ a.secondId ≠ 255 ∧ a.mask ≠ 0 := by
  unfold addressingOf at h
  split at h
  · cases h
  · rename_i hu
    split at h
    · cases h
      simp only [not_or, not_le, not_lt, ge_iff_le] at hu
      obtain ⟨p0, p255, s255, m0, m255⟩ := hu
      refine ⟨?_, ?_, ?_, ?_⟩ <;> simp only [ne_eq, ← BitVec.toNat_inj, BitVec.toNat_ofNat] <;> simp <;> omega
    · cases h

theorem Parser.atPowerOn_sound (ch : Channel) : (Parser.atPowerOn ch).Sound := by
  refine ⟨?_, ?_, by simp [atPowerOn, Addressing.default], by simp [atPowerOn, Addressing.default],
    Nat.zero_le _, nofun⟩ <;> cases ch <;> decide

theorem Parser.Sound.afterPartReset {p : Parser} (h : p.Sound) (ch : Channel) : (p.afterPartReset ch).Sound := by
  obtain ⟨primary, broadcast, second, mask, -, -⟩ := Parser.atPowerOn_sound ch
  obtain ⟨-, -, -, -, count, -⟩ := h
  exact ⟨primary, broadcast, second, mask, count, nofun⟩

theorem Parser.Sound.countArm {p : Parser} (h : p.Sound) : p.countArm.Sound := by
  obtain ⟨primary, broadcast, second, mask, count, arm⟩ := h
  unfold Parser.countArm
  split
  · exact ⟨primary, broadcast, second, mask, count, arm⟩
  · rename_i a ha
    refine ⟨primary, broadcast, second, mask, count, fun b hb => ?_⟩
    have bounds := arm a ha
    dsimp only at hb
    split at hb
    · cases hb
    · cases hb
      dsimp only
      omega

theorem ChannelState.countLoad_parser (c : ChannelState) :
    c.countLoad.parser.addressing = c.parser.addressing ∧ c.countLoad.parser.packetCount = c.parser.packetCount ∧
      c.countLoad.parser.arm = c.parser.arm := by
  unfold ChannelState.countLoad
  split
  · exact ⟨rfl, rfl, rfl⟩
  · split <;> exact ⟨rfl, rfl, rfl⟩

theorem ChannelState.appendItems_parser (c : ChannelState) (x : LoadContext) (its : List Item) :
    (c.appendItems x its).parser.addressing = c.parser.addressing ∧
      (c.appendItems x its).parser.packetCount = c.parser.packetCount ∧
      (c.appendItems x its).parser.arm = c.parser.arm := by
  unfold ChannelState.appendItems
  dsimp only
  split <;> exact ⟨rfl, rfl, rfl⟩

theorem ChanChange.parser_sound {ok : Template → Prop} {c d : ChannelState} (h : ChanChange ok c d)
    (hs : c.parser.Sound) : d.parser.Sound := by
  cases h with
  | disarm | channelReset => exact hs.of_eq rfl rfl (.inr rfl)
  | addressing u a ha =>
    obtain ⟨primary, broadcast, second, mask⟩ := addressingOf_sound ha
    obtain ⟨-, -, -, -, count, arm⟩ := hs
    exact ⟨primary, broadcast, second, mask, count, arm⟩
  | armReset sc =>
    obtain ⟨primary, broadcast, second, mask, count, -⟩ := hs
    exact ⟨primary, broadcast, second, mask, count, fun a ha => by cases ha; exact ⟨one_le_two, le_rfl⟩⟩
  | countArm => exact hs.countArm
  | countPacket hp =>
    obtain ⟨primary, broadcast, second, mask, -, arm⟩ := hs
    exact ⟨primary, broadcast, second, mask, hp, arm⟩
  | newFrame =>
    obtain ⟨primary, broadcast, second, mask, -, arm⟩ := hs
    exact ⟨primary, broadcast, second, mask, Nat.zero_le _, arm⟩
  | countLoad =>
    obtain ⟨addressing, count, arm⟩ := c.countLoad_parser
    exact hs.of_eq addressing count (.inl arm)
  | appendItems x its =>
    obtain ⟨addressing, count, arm⟩ := c.appendItems_parser x its
    exact hs.of_eq addressing count (.inl arm)
  | partReset ch => exact hs.afterPartReset ch
  | powerOn ch => exact Parser.atPowerOn_sound ch
  | skip | openLoad | dropLoad | emptied => exact hs.of_eq rfl rfl (.inl rfl)
  | start | countItem | takeList | runOn => simpa using hs
  | raise | record | append | clearMask | readback | output | schedule | fetch | fields | copy | arm | takeLook
  | markEnd | reloadWatch | aborting | spent | engineWork | compose | status => exact hs

/-! ### The composers (R139, R140, R143) -/

theorem codeGain_le (n : Nat) : codeGain n ≤ Config.one := by
  unfold codeGain Config.one
  split <;> omega

theorem gainTargets_le (view : FrameView) : (gainTargets view).1 ≤ Config.one ∧ (gainTargets view).2 ≤ Config.one := by
  have zero : (0 : Nat) ≤ Config.one := Nat.zero_le _
  unfold gainTargets
  dsimp only
  split
  case h_1 | h_2 | h_3 => exact ⟨le_refl _, zero⟩
  case h_4 | h_5 =>
    split
    · exact ⟨codeGain_le _, codeGain_le _⟩
    · exact ⟨codeGain_le _, zero⟩
  case h_6 | h_7 =>
    split
    · exact ⟨zero, codeGain_le _⟩
    · exact ⟨zero, zero⟩

/-- A ramp stays between its start and its target (R143). -/
theorem rampAt_le {a b p : Nat} (ha : a ≤ Config.one) (hb : b ≤ Config.one) (hp : p ≤ 1024) :
    rampAt a b p ≤ Config.one := by
  unfold rampAt
  have room : (b : Int) - a ≤ Config.one - a := by omega
  have rise : ((b : Int) - a) * p ≤ (Config.one - a) * 1024 :=
    calc ((b : Int) - a) * p ≤ (Config.one - a) * p := Int.mul_le_mul_of_nonneg_right room (by omega)
      _ ≤ (Config.one - a) * 1024 := Int.mul_le_mul_of_nonneg_left (by omega) (by omega)
  have quotient : ((b : Int) - a) * p / 1024 ≤ Config.one - a := Int.ediv_le_of_le_mul (by omega) rise
  omega

theorem Gain.Sound.at_le {g : Gain} (h : g.Sound) (n : Nat) : g.at n ≤ Config.one := by
  obtain ⟨-, target, start, -⟩ := h
  unfold Gain.at
  split
  · exact target
  · split
    · exact target
    · rename_i hn
      exact rampAt_le start target (by simp only [Config.rampLength] at hn; omega)

theorem Gain.Sound.retarget {g : Gain} (h : g.Sound) {v : Nat} (hv : v ≤ Config.one) : (g.retarget v).Sound := by
  obtain ⟨present, target, start, position⟩ := h
  unfold Gain.retarget
  split
  · exact ⟨present, target, start, position⟩
  · refine ⟨present, hv, ?_, fun n hn => by cases hn; decide⟩
    unfold Gain.startValue
    dsimp only
    split
    · exact target
    · exact present

theorem Gain.Sound.after {g : Gain} (h : g.Sound) (n : Nat) : (g.after n).Sound := by
  have mixed := h.at_le (n - 1)
  obtain ⟨present, target, start, -⟩ := h
  refine ⟨?_, target, start, fun k hk => ?_⟩
  · unfold Gain.after
    dsimp only
    split
    · exact present
    · exact mixed
  · simp only [Gain.after] at hk
    split at hk
    · cases hk
    · split at hk
      · cases hk
      · cases hk
        omega

theorem Hold.next_le (h : Hold) : h.next ≤ Config.holdLimit := Nat.min_le_right _ _

theorem drawInput_hold_le (valid : Bool) (src : Picture) (r : Rect) (backing : Colour) (h : Hold) :
    (drawInput valid src r backing h).hold.counter ≤ Config.holdLimit := by
  unfold drawInput
  split
  · exact Nat.zero_le _
  · exact h.next_le

theorem drawProgramme_hold_le (rate : FrameRate) (inp : FrameInputs) (view : FrameView) (h : Hold) :
    (drawProgramme rate inp view h).hold.counter ≤ Config.holdLimit := by
  unfold drawProgramme
  split
  · exact Nat.zero_le _
  · exact drawInput_hold_le ..

theorem drawPromo_hold_le (rate : FrameRate) (inp : FrameInputs) (view : FrameView) (h : Hold) :
    (drawPromo rate inp view h).hold.counter ≤ Config.holdLimit := by
  unfold drawPromo
  split
  · exact Nat.zero_le _
  · split
    · exact drawInput_hold_le ..
    · exact drawInput_hold_le ..
    · exact Nat.zero_le _
    · exact Nat.zero_le _

theorem ChannelState.compose_sound {c : ChannelState} (h : c.composer.Sound) (rate : FrameRate) (inp : FrameInputs)
    (view : FrameView) : (c.compose rate inp view).composer.Sound := by
  obtain ⟨gP, gR, -, -⟩ := h
  obtain ⟨aimP, aimR⟩ := gainTargets_le view
  exact ⟨(gP.retarget aimP).after _, (gR.retarget aimR).after _, drawProgramme_hold_le .., drawPromo_hold_le ..⟩

theorem Composer.atReset_sound : Composer.atReset.Sound :=
  ⟨⟨by decide, by decide, by decide, nofun⟩, ⟨by decide, by decide, by decide, nofun⟩, by decide, by decide⟩

@[simp] theorem ChannelState.countLoad_composer (c : ChannelState) : c.countLoad.composer = c.composer := by
  unfold ChannelState.countLoad
  split
  · rfl
  · split <;> rfl

@[simp] theorem ChannelState.appendItems_composer (c : ChannelState) (x : LoadContext) (its : List Item) :
    (c.appendItems x its).composer = c.composer := by
  unfold ChannelState.appendItems
  dsimp only
  split <;> rfl

theorem ChanChange.composer_sound {ok : Template → Prop} {c d : ChannelState} (h : ChanChange ok c d)
    (hs : c.composer.Sound) : d.composer.Sound := by
  cases h with
  | compose rate inp view => exact ChannelState.compose_sound hs rate inp view
  | channelReset | partReset | powerOn => exact Composer.atReset_sound
  | start | countItem | takeList | runOn | countLoad | appendItems => simpa using hs
  | raise | record | append | clearMask | readback | disarm | skip | addressing | armReset | countArm | countPacket
  | newFrame | output | schedule | fetch | fields | copy | arm | takeLook | markEnd | reloadWatch | aborting | spent
  | emptied | openLoad | dropLoad | engineWork | status => exact hs

/-! ### The reporters (R176) -/

theorem Reporter.Sound.raiseIf {r : Reporter} (h : r.Sound) (b : Bool) (f : Flag) : (r.raiseIf b f).Sound := by
  cases b <;> exact h

/-- A fifth result removes the oldest and sets OMITTED (R176). -/
theorem Reporter.Sound.append {r : Reporter} (h : r.Sound) (e : ResultEntry) : (r.append e).Sound := by
  obtain ⟨length, omitted⟩ := h
  unfold Reporter.append
  split
  · rename_i hlt
    refine ⟨by simpa using hlt, fun ho => ?_⟩
    have full := omitted ho
    omega
  · rename_i hfull
    have full : r.results.length = Config.resultSize := by omega
    have appended : (r.results.drop 1 ++ [e]).length = Config.resultSize := by
      simp [full, Config.resultSize]
    exact ⟨appended.le, fun _ => appended⟩

theorem Reporter.Sound.bankStep {c : ChannelState} (h : c.reporter.Sound) (b : BankId) :
    (c.bankStep b).reporter.Sound := by
  unfold ChannelState.bankStep
  split <;> exact h

theorem Reporter.Sound.countLoad {c : ChannelState} (h : c.reporter.Sound) : c.countLoad.reporter.Sound := by
  unfold ChannelState.countLoad
  split
  · exact h
  · split <;> exact h

theorem Reporter.Sound.appendItems {c : ChannelState} (h : c.reporter.Sound) (x : LoadContext) (its : List Item) :
    (c.appendItems x its).reporter.Sound := by
  unfold ChannelState.appendItems
  dsimp only
  split <;> exact h

theorem ChanChange.reporter_sound {ok : Template → Prop} {c d : ChannelState} (h : ChanChange ok c d)
    (hs : c.reporter.Sound) : d.reporter.Sound := by
  cases h with
  | append e => exact hs.append e
  | start g r =>
    rw [ChannelState.startJunction_reporter]
    exact Reporter.Sound.bankStep (c := c.assignScalers g) (hs.raiseIf _ _) _
  | countItem v => rw [ChannelState.countItem_reporter]; exact hs.raiseIf _ _
  | takeList v => rw [ChannelState.takeList_reporter]; exact hs.raiseIf _ _
  | runOn v => rw [ChannelState.runOn_reporter]; exact hs.raiseIf _ _
  | compose => exact hs.raiseIf _ _
  | countLoad => exact hs.countLoad
  | appendItems x its => exact hs.appendItems x its
  | channelReset | partReset | powerOn | status => exact ⟨Nat.zero_le _, nofun⟩
  | raise | record | clearMask | readback | disarm | skip | addressing | armReset | countArm | countPacket
  | newFrame | output | schedule | fetch | fields | copy | arm | takeLook | markEnd | reloadWatch | aborting | spent
  | emptied | openLoad | dropLoad | engineWork => exact hs

/-! ### The tally lines (R22) -/

/-- The tally line agrees with the engine's state. -/
def ChannelState.TallyAgrees (c : ChannelState) : Prop := c.tally = c.engine.state.tally

theorem ChannelState.TallyAgrees.countLoad {c : ChannelState} (h : c.TallyAgrees) : c.countLoad.TallyAgrees := by
  unfold ChannelState.countLoad
  split
  · exact h
  · split <;> exact h

theorem ChannelState.TallyAgrees.appendItems {c : ChannelState} (h : c.TallyAgrees) (x : LoadContext)
    (its : List Item) : (c.appendItems x its).TallyAgrees := by
  unfold ChannelState.appendItems
  dsimp only
  split <;> exact h

theorem ChanChange.tally_agrees {ok : Template → Prop} {c d : ChannelState} (h : ChanChange ok c d)
    (hs : c.TallyAgrees) : d.TallyAgrees := by
  cases h with
  | countItem | takeList => simpa [ChannelState.TallyAgrees] using hs
  | runOn => simp [ChannelState.TallyAgrees]
  | countLoad => exact hs.countLoad
  | appendItems x its => exact hs.appendItems x its
  | arm | start | spent | emptied | channelReset | partReset | powerOn | engineWork => rfl
  | raise | record | append | clearMask | readback | disarm | skip | addressing | armReset | countArm | countPacket
  | newFrame | output | schedule | fetch | fields | copy | takeLook | markEnd | reloadWatch | aborting | openLoad
  | dropLoad | compose | status => exact hs

/-! ### The reference and the management enables (R146, R149, R168) -/

theorem RefCounter.atPowerOn_sound (rate : FrameRate) : (RefCounter.atPowerOn rate).Sound := ⟨rfl, Nat.zero_le _⟩

theorem RefCounter.Sound.qualifying {r : RefCounter} (h : r.Sound) (hf : r.state = .freeRun) {n : Nat}
    (hn : n ≤ Config.qualifyCount) : ({ r with qualifying := some n } : RefCounter).Sound := by
  unfold RefCounter.Sound at h ⊢
  rw [hf] at h ⊢
  cases hq : r.qualifying with
  | none => simp [hq] at h
  | some k =>
    rw [hq] at h
    exact ⟨h.1, hn⟩

theorem Change.ref_sound {s t : State} (h : Change s t) (hs : s.ref.Sound) : t.ref.Sound := by
  rcases h.one_channel_or with ⟨ch, kept⟩ | part
  · rw [kept.ref]
    exact hs
  · cases part with
    | reference r _ hr =>
      rcases hr with rfl | rfl | ⟨hf, n, hn, rfl⟩
      · exact rfl
      · exact ⟨rfl, Nat.zero_le _⟩
      · exact hs.qualifying hf hn
    | powerOn => exact RefCounter.atPowerOn_sound _
    | startOperation op => rw [startOperation_eq]; exact hs
    | libraryWork => rw [libraryWork_eq]; exact hs
    | setTime v => rw [(partStands_setTimeBody v s).ref]; exact hs
    | volatileSlot | storeFail | protection | management | openFrame | partReset | judge => exact hs

theorem Change.some_manager {s t : State} (h : Change s t) (hs : s.SomeManager) : t.SomeManager := by
  have stands {u : State} (hu : u.management = s.management) : u.SomeManager := by
    obtain ⟨ch, hch⟩ := hs
    exact ⟨ch, by rw [hu, hch]⟩
  rcases h.one_channel_or with ⟨ch, kept⟩ | part
  · exact stands kept.management
  · cases part with
    | management m hm =>
      simp only [Bool.or_eq_true] at hm
      rcases hm with ((ha | hb) | hc) | hd
      · exact ⟨.a, ha⟩
      · exact ⟨.b, hb⟩
      · exact ⟨.c, hc⟩
      · exact ⟨.d, hd⟩
    | partReset | powerOn => exact ⟨.a, rfl⟩
    | startOperation op => exact stands (by rw [startOperation_eq])
    | libraryWork => exact stands (by rw [libraryWork_eq])
    | setTime v => exact stands (partStands_setTimeBody v s).management
    | reference | volatileSlot | storeFail | protection | openFrame | judge => exact stands rfl

/-- A property of the state that every change keeps, and that does not see the queue, is kept by every step. -/
theorem step_keeps {p : State → Prop} (hp : ∀ s t, Change s t → p s → p t)
    (hq : ∀ (s : State) (q : List Instr), p s → p { s with pending := q }) {s t : State} (h : step s = .next t)
    (hs : p s) : p t := by
  obtain ⟨rest, run⟩ := changes_step h
  exact run.keep hp (hq s rest hs)

/-- Settles O12: four of the registers are kept by every change of a channel's blocks, two by every change of the part. -/
theorem stepKeepsTheRegisters : Obligations.StepKeepsTheRegisters := fun _ _ h =>
  ⟨step_keeps_channels (p := fun c => c.parser.Sound) (fun _ _ hc => hc.parser_sound) h,
    step_keeps_channels (p := fun c => c.composer.Sound) (fun _ _ hc => hc.composer_sound) h,
    step_keeps_channels (p := fun c => c.reporter.Sound) (fun _ _ hc => hc.reporter_sound) h,
    step_keeps (p := fun u => u.ref.Sound) (fun _ _ hc => hc.ref_sound) (fun _ _ hs => hs) h,
    step_keeps (p := State.SomeManager) (fun _ _ hc => hc.some_manager) (fun _ _ hs => hs) h,
    step_keeps_channels (p := ChannelState.TallyAgrees) (fun _ _ hc => hc.tally_agrees) h⟩

end Sys2Proof.Machine
end

section
/-!
PROOFS. Every window stays drawable (R56): the interpolation of a move keeps within its two ends, and the engine's work
leads from sound engines to sound engines, its state items included (R21, R48). The engine of a channel is followed
through each operation of that channel; the engine of any other channel stands but for a grant.
-/

namespace Sys2Proof.Machine

/-! ### Rectangles (R53 to R56) -/

theorem fullFrame_drawable : Rect.Drawable fullFrame := by simp [Rect.Drawable, fullFrame]

/-- An interpolated coordinate lies between the two it is interpolated between (R53). -/
theorem interpolate_between {e c0 c1 lo hi : Nat} (he : e ≤ 65536) (h0 : lo ≤ c0 ∧ c0 ≤ hi) (h1 : lo ≤ c1 ∧ c1 ≤ hi) :
    lo ≤ interpolate e c0 c1 ∧ interpolate e c0 c1 ≤ hi := by
  unfold interpolate
  generalize hd : (c1 : Int) - c0 = d
  generalize hp : d * (e : Int) = p
  have bounds : (d ≤ 0 → 65536 * d ≤ p ∧ p ≤ 0) ∧ (0 ≤ d → 0 ≤ p ∧ p ≤ 65536 * d) := by
    subst hp
    have he' : (e : Int) ≤ 65536 := by exact_mod_cast he
    have he0 : (0 : Int) ≤ e := Int.natCast_nonneg e
    exact ⟨fun _ => ⟨by nlinarith, by nlinarith⟩, fun _ => ⟨by nlinarith, by nlinarith⟩⟩
  rcases le_total d 0 with hle | hle
  · have := bounds.1 hle
    omega
  · have := bounds.2 hle
    omega

theorem evenDown_even (n : Nat) : evenDown n % 2 = 0 := by unfold evenDown; omega

/-- A rectangle with even x and w, large enough, becomes drawable by the clamp (R54, R55). -/
theorem clampRect_drawable {r : Rect} (hx : r.x % 2 = 0) (hw : r.w % 2 = 0) (hw' : 192 ≤ r.w ∧ r.w ≤ 1920)
    (hh : 108 ≤ r.h ∧ r.h ≤ 1080) : Rect.Drawable (clampRect r) := by
  obtain ⟨x, y, w, h⟩ := r
  simp only [Rect.Drawable, clampRect] at hx hw hw' hh ⊢
  refine ⟨?_, ?_, ?_, hw, hw'.1, hh.1⟩ <;> split <;> omega

theorem rectAt_drawable {e : Nat} {src dst : Rect} (he : e ≤ 65536) (hs : Rect.Drawable src)
    (hd : Rect.Drawable dst) : Rect.Drawable (rectAt e src dst) := by
  obtain ⟨sx, sy, -, -, sw, sh⟩ := hs
  obtain ⟨dx, dy, -, -, dw, dh⟩ := hd
  have width := interpolate_between (lo := 192) (hi := 1920) he ⟨sw, by omega⟩ ⟨dw, by omega⟩
  have height := interpolate_between (lo := 108) (hi := 1080) he ⟨sh, by omega⟩ ⟨dh, by omega⟩
  refine clampRect_drawable (evenDown_even _) (evenDown_even _) ?_ height
  dsimp only [evenDown]
  omega

/-- Every frame of a move between drawable rectangles is drawable (R56). -/
theorem moveRect_drawable {k m : Nat} {c : Easing} {ends : Ends} (hk : k ≤ m) (h : ends.Sound) :
    Rect.Drawable (moveRect k m c ends) := by
  unfold moveRect
  split
  · exact h.2
  · have bound : eased c (progress k m) ≤ 65536 :=
      (eased_progress_mono c m hk).trans_eq (eased_progress_self c (by omega))
    exact rectAt_drawable bound h.1 h.2

/-! ### Templates (R101 to R103) -/

theorem fallbackLayout_sound : fallbackLayout.Sound := by
  simp [Template.Sound, Rect.Drawable, fallbackLayout, fullFrame]

theorem rectOk_iff {r : Rect} : rectOk r = true ↔ Rect.Drawable r := by
  simp [rectOk, Rect.Drawable, and_assoc]

/-- A template that passed validation is sound (R102). -/
theorem templateOf_sound {r : RawTemplate} {t : Template} (h : templateOf r = some t) : t.Sound := by
  unfold templateOf at h
  split at h
  · rename_i hr
    split at h
    · cases h
      simp only [templateRangesOk, Bool.and_eq_true, decide_eq_true_eq, rectOk_iff] at hr
      obtain ⟨⟨⟨⟨⟨⟨⟨⟨⟨⟨⟨-, pgm⟩, start⟩, target⟩, mIn⟩, mOut⟩, -⟩, -⟩, -⟩, -⟩, -⟩, -⟩ := hr
      exact ⟨pgm, start, target, mIn, mOut⟩
    · cases h
  · cases h

/-! ### The engine's windows -/

theorem Engine.idle_sound : Engine.idle.Sound :=
  ⟨rfl, ⟨fun r h => by cases h; exact fullFrame_drawable, nofun⟩, fallbackLayout_sound⟩

theorem Engine.promoStart_drawable {e : Engine} (h : e.template.Sound) : Rect.Drawable e.promoStart := by
  unfold Engine.promoStart
  split
  · exact fullFrame_drawable
  · exact h.2.1

theorem Engine.promoTarget_drawable {e : Engine} (h : e.template.Sound) : Rect.Drawable e.promoTarget := by
  unfold Engine.promoTarget
  split
  · exact fullFrame_drawable
  · exact h.2.2.1

theorem Engine.template_modRecord {e : Engine} {f : JunctionRecord → JunctionRecord}
    (hf : ∀ r, (f r).template = r.template) : (e.modRecord f).template = e.template := by
  unfold Engine.template
  cases hr : e.record <;> simp [hr, hf]

/-- A change of the junction record that leaves a sound template leaves the engine sound. -/
theorem Engine.Sound.modRecord' {e : Engine} (h : e.Sound) {f : JunctionRecord → JunctionRecord}
    (ht : (e.modRecord f).template.Sound) : (e.modRecord f).Sound := by
  obtain ⟨state, rects, -⟩ := h
  refine ⟨?_, rects, ht⟩
  unfold Engine.StateSound at state ⊢
  rw [Engine.modRecord_state]
  split at state
  · rw [state]
    rfl
  · obtain ⟨r, hr⟩ := state
    exact ⟨f r, by rw [hr]; rfl⟩
  all_goals
    obtain ⟨record, rest⟩ := state
    exact ⟨by simpa using record, rest⟩

theorem Engine.Sound.modRecord {e : Engine} (h : e.Sound) {f : JunctionRecord → JunctionRecord}
    (hf : ∀ r, (f r).template = r.template) : (e.modRecord f).Sound :=
  h.modRecord' (by rw [Engine.template_modRecord hf]; exact h.2.2)

/-- A sound template put into the record leaves the engine sound. -/
theorem Engine.Sound.putTemplate {e : Engine} (h : e.Sound) {t : Template} (ht : t.Sound)
    {f : JunctionRecord → JunctionRecord} (hf : ∀ r, (f r).template = some t) : (e.modRecord f).Sound := by
  refine h.modRecord' ?_
  unfold Engine.template
  cases hr : e.record with
  | none => simpa [hr] using fallbackLayout_sound
  | some r => simpa [hr, hf] using ht

theorem Engine.Sound.record_isSome {e : Engine} (h : e.Sound) (hi : e.state ≠ .idle) : e.record.isSome := by
  obtain ⟨state, -⟩ := h
  unfold Engine.StateSound at state
  split at state
  · exact absurd ‹_› hi
  · obtain ⟨r, hr⟩ := state
    rw [hr]
    rfl
  all_goals exact state.1

theorem Engine.Sound.eq_idle {e : Engine} (h : e.Sound) (hi : e.state = .idle) : e = .idle := by
  have state := h.1
  unfold Engine.StateSound at state
  rwa [hi] at state

theorem Engine.Sound.arm {e : Engine} (h : e.Sound) (hi : e.state = .idle) {r : JunctionRecord}
    (hr : r.template = none) : ({ e with state := .armed, record := some r } : Engine).Sound := by
  rw [h.eq_idle hi]
  refine ⟨⟨r, rfl⟩, Engine.idle_sound.2.1, ?_⟩
  simpa [Engine.template, hr] using fallbackLayout_sound

/-- LIST_END may be marked in the states that look for an end (R37). -/
theorem Engine.Sound.marker {e : Engine} (h : e.Sound) (hs : e.state.advancesItems = true) (m : Option Marker) :
    ({ e with marker := m } : Engine).Sound := by
  obtain ⟨state, rects, template⟩ := h
  refine ⟨?_, rects, template⟩
  unfold Engine.StateSound at state ⊢
  dsimp only
  split at state <;> rename_i hst <;> rw [hst] at hs <;> first | exact state | cases hs

theorem Engine.Sound.reloadWatch {e : Engine} (h : e.Sound) (hs : e.state = .held) (w : Option Nat) :
    ({ e with watch := w } : Engine).Sound := by
  obtain ⟨state, rects, template⟩ := h
  refine ⟨?_, rects, template⟩
  unfold Engine.StateSound at state ⊢
  rw [hs] at state ⊢
  exact state

/-! ### The engine's moves -/

/-- The rectangles shown for a counter not past the length of the move are drawable (R49, R56). -/
theorem Engine.showMove_rectsSound {e : Engine} {mv : MoveRecord} (hm : e.move = some mv) (hk : e.k ≤ mv.length)
    (hp : mv.promo.Sound) (hg : ∀ x, mv.pgm = some x → x.Sound) : e.showMove.RectsSound := by
  unfold Engine.showMove
  rw [hm]
  refine ⟨fun r hr => ?_, fun r hr => ?_⟩
  · obtain ⟨x, hx, rfl⟩ := Option.map_eq_some_iff.mp hr
    exact moveRect_drawable hk (hg x hx)
  · cases hr
    exact moveRect_drawable hk hp

theorem Engine.showMove_of_move {e : Engine} {mv : MoveRecord} (hm : e.move = some mv) :
    e.showMove =
      { e with
        pgmRect := mv.pgm.map (moveRect e.k mv.length mv.easing)
        promoRect := some (moveRect e.k mv.length mv.easing mv.promo) } := by
  unfold Engine.showMove
  rw [hm]

/-- What a sound engine in the middle of a move has, in the words its next frame needs. -/
theorem Engine.MoveSound.advance {e : Engine} {b : Bool} (h : e.MoveSound b) :
    e.advance.RectsSound ∧ e.advance.promoRect.isSome ∧ e.advance.pgmRect.isSome = b ∧
      (e.k + 1 < e.m → e.advance.MoveSound b) := by
  obtain ⟨mv, hm, length, hk, hlt, promo, pgm, hb⟩ := h
  have shown : e.advance = _ := Engine.showMove_of_move (e := { e with k := e.k + 1 }) hm
  refine ⟨Engine.showMove_rectsSound (e := { e with k := e.k + 1 }) hm (by simp only; omega) promo pgm, ?_, ?_, ?_⟩
  · rw [shown]
    rfl
  · rw [shown]
    simpa using hb
  · intro hk'
    rw [shown]
    exact ⟨mv, hm, length, hk', hlt, promo, pgm, hb⟩

@[simp] theorem Engine.advance_state (e : Engine) : e.advance.state = e.state := Engine.showMove_state _
@[simp] theorem Engine.showMove_record (e : Engine) : e.showMove.record = e.record := by
  unfold Engine.showMove; split <;> rfl
@[simp] theorem Engine.showMove_k (e : Engine) : e.showMove.k = e.k := by unfold Engine.showMove; split <;> rfl
@[simp] theorem Engine.showMove_m (e : Engine) : e.showMove.m = e.m := by unfold Engine.showMove; split <;> rfl
@[simp] theorem Engine.showMove_move (e : Engine) : e.showMove.move = e.move := by
  unfold Engine.showMove; split <;> rfl
@[simp] theorem Engine.showMove_credit (e : Engine) : e.showMove.credit = e.credit := by
  unfold Engine.showMove; split <;> rfl
@[simp] theorem Engine.showMove_watch (e : Engine) : e.showMove.watch = e.watch := by
  unfold Engine.showMove; split <;> rfl
@[simp] theorem Engine.showMove_marker (e : Engine) : e.showMove.marker = e.marker := by
  unfold Engine.showMove; split <;> rfl
@[simp] theorem Engine.showMove_degraded (e : Engine) : e.showMove.degraded = e.degraded := by
  unfold Engine.showMove; split <;> rfl
@[simp] theorem Engine.advance_record (e : Engine) : e.advance.record = e.record := Engine.showMove_record _
@[simp] theorem Engine.advance_k (e : Engine) : e.advance.k = e.k + 1 := Engine.showMove_k _
@[simp] theorem Engine.advance_m (e : Engine) : e.advance.m = e.m := Engine.showMove_m _
@[simp] theorem Engine.advance_credit (e : Engine) : e.advance.credit = e.credit := Engine.showMove_credit _
@[simp] theorem Engine.advance_watch (e : Engine) : e.advance.watch = e.watch := Engine.showMove_watch _
@[simp] theorem Engine.advance_marker (e : Engine) : e.advance.marker = e.marker := Engine.showMove_marker _
@[simp] theorem Engine.advance_degraded (e : Engine) : e.advance.degraded = e.degraded := Engine.showMove_degraded _
@[simp] theorem Engine.advance_template (e : Engine) : e.advance.template = e.template := by simp [Engine.template]

/-! ### The states the engine enters -/

theorem Engine.enterHeld_sound {e : Engine} (hr : e.record.isSome) (ht : e.template.Sound) (b : Bool) :
    (e.enterHeld b).Sound := by
  have held : (e.enterHeld false).Sound := by
    refine ⟨⟨hr, ⟨rfl, rfl, rfl⟩, rfl, rfl⟩, ⟨fun r h => ?_, fun r h => ?_⟩, ht⟩
    · cases h
      exact ht.1
    · cases h
      exact Engine.promoTarget_drawable ht
  cases b with
  | false => exact held
  | true => exact held.marker rfl _

theorem Engine.counterStep_sound {e : Engine} (hr : e.record.isSome) (hw : e.watch = none) (ht : e.template.Sound)
    (b : Bool) : (e.counterStep b).Sound := by
  have same (f : JunctionRecord → JunctionRecord) (hf : ∀ r, (f r).template = r.template) :
      (e.modRecord f).template.Sound := by rwa [Engine.template_modRecord hf]
  unfold Engine.counterStep
  dsimp only
  split
  · rename_i hk
    refine ⟨?_, Engine.showMove_rectsSound rfl hk.le ?_ ?_, ?_⟩
    · refine ⟨by simpa using hr, ⟨_, rfl, rfl, hk, ht.2.2.2.1, ?_, ?_, rfl⟩, rfl, rfl, hw⟩
      · exact ⟨Engine.promoStart_drawable (same _ fun _ => rfl), Engine.promoTarget_drawable (same _ fun _ => rfl)⟩
      · intro x hx
        cases hx
        exact ⟨fullFrame_drawable, ht.1⟩
    · exact ⟨Engine.promoStart_drawable (same _ fun _ => rfl), Engine.promoTarget_drawable (same _ fun _ => rfl)⟩
    · intro x hx
      cases hx
      exact ⟨fullFrame_drawable, ht.1⟩
    · exact same _ fun _ => rfl
  · refine Engine.enterHeld_sound ?_ ?_ b
    · simpa using hr
    · exact same _ fun _ => rfl

/-- A window on show, or the full frame in its place, is drawable. -/
theorem Engine.RectsSound.getD {e : Engine} (h : e.RectsSound) :
    Rect.Drawable (e.pgmRect.getD fullFrame) ∧ Rect.Drawable (e.promoRect.getD fullFrame) := by
  constructor
  · cases hr : e.pgmRect with
    | none => exact fullFrame_drawable
    | some r => exact h.1 r hr
  · cases hr : e.promoRect with
    | none => exact fullFrame_drawable
    | some r => exact h.2 r hr

theorem Engine.beginRelease_sound {e : Engine} {n : Nat} (hr : e.record.isSome) (hw : e.RectsSound)
    (ht : e.template.Sound) (hc : e.CountersStopped) (hm : e.marker = none) (hn : 0 < n) (hn' : n ≤ 250) :
    (e.beginRelease n).Sound := by
  obtain ⟨pgm, promo⟩ := hw.getD
  have back : Ends.Sound { src := e.promoRect.getD fullFrame, dst := e.promoStart } :=
    ⟨promo, Engine.promoStart_drawable ht⟩
  have home : ∀ x, some ({ src := e.pgmRect.getD fullFrame, dst := fullFrame } : Ends) = some x → x.Sound :=
    fun x hx => by cases hx; exact ⟨pgm, fullFrame_drawable⟩
  exact ⟨⟨hr, ⟨_, rfl, rfl, hn, hn', back, home, rfl⟩, rfl, rfl, hc, hm⟩,
    Engine.showMove_rectsSound rfl (Nat.zero_le _) back home, ht⟩

theorem Engine.enterPromoFull_sound {e : Engine} (hr : e.record.isSome) (ht : e.template.Sound)
    (hc : e.CountersStopped) : e.enterPromoFull.Sound :=
  ⟨⟨hr, ⟨rfl, rfl, rfl⟩, rfl, rfl, hc⟩, ⟨nofun, fun r h => by cases h; exact fullFrame_drawable⟩, ht⟩

theorem Engine.beginTakeover_sound {e : Engine} (hr : e.record.isSome) (hw : e.RectsSound) (ht : e.template.Sound)
    (hc : e.CountersStopped) : e.beginTakeover.Sound := by
  unfold Engine.beginTakeover
  split
  · exact Engine.enterPromoFull_sound hr ht hc
  · rename_i hm
    have fill : Ends.Sound { src := e.promoRect.getD fullFrame, dst := fullFrame } :=
      ⟨hw.getD.2, fullFrame_drawable⟩
    exact ⟨⟨hr, ⟨_, rfl, rfl, Nat.pos_of_ne_zero hm, ht.2.2.2.2, fill, nofun, rfl⟩, rfl, rfl, hc⟩,
      Engine.showMove_rectsSound rfl (Nat.zero_le _) fill nofun, ht⟩

/-! ### The engine's work -/

theorem Engine.takeCause_template (e : Engine) (c : EndCause) : (e.takeCause c).template = e.template :=
  Engine.template_modRecord fun _ => rfl

/-- The length of the move a cause begins: the k reached from SQUEEZE, M_out from HELD (R40). -/
def Engine.endLength (e : Engine) : Nat := if e.state = .squeeze then e.k else e.template.mOut

section
variable {e : Engine} {c : EndCause} {items : Bool}

theorem Engine.act_of_takesOver (h : e.takesOver c items = true) :
    e.act c items = { engine := (e.takeCause c).beginTakeover, ending := .goes, tookCause := true } := if_pos h

theorem Engine.act_of_cut (h : e.takesOver c items = false) (hz : e.endLength = 0) :
    e.act c items = { engine := e.takeCause c, ending := .cut .completedRestore, tookCause := true } :=
  (if_neg (by simp [h])).trans (if_pos hz)

theorem Engine.act_of_release (h : e.takesOver c items = false) (hz : e.endLength ≠ 0) :
    e.act c items =
      { engine := (e.takeCause c).beginRelease e.endLength, ending := .goes, tookCause := true } :=
  (if_neg (by simp [h])).trans (if_neg hz)

end

/-- The three ends of a cause: a takeover, a cut to passthrough, a release (R39, R40). -/
theorem Engine.act_cases (e : Engine) (c : EndCause) (items : Bool) :
    e.act c items = { engine := (e.takeCause c).beginTakeover, ending := .goes, tookCause := true } ∨
      e.act c items = { engine := e.takeCause c, ending := .cut .completedRestore, tookCause := true } ∨
      0 < e.endLength ∧
        e.act c items =
          { engine := (e.takeCause c).beginRelease e.endLength, ending := .goes, tookCause := true } := by
  cases h : e.takesOver c items with
  | true => exact .inl (Engine.act_of_takesOver h)
  | false =>
    rcases Nat.eq_zero_or_pos e.endLength with hz | hz
    · exact .inr (.inl (Engine.act_of_cut h hz))
    · exact .inr (.inr ⟨hz, Engine.act_of_release h hz.ne'⟩)

theorem Engine.Sound.endLength_le {e : Engine} (h : e.Sound) : e.endLength ≤ 250 := by
  unfold Engine.endLength
  split
  · rename_i hsq
    obtain ⟨state, -⟩ := h
    unfold Engine.StateSound at state
    rw [hsq] at state
    obtain ⟨-, ⟨mv, -, -, hk, hm, -⟩, -⟩ := state
    omega
  · exact h.2.2.2.2.2.2

/-- The end action of a cause leaves a sound engine where the junction goes on (R39, R40). -/
theorem Engine.Sound.act {e : Engine} (h : e.Sound) (hs : e.state = .squeeze ∨ e.state = .held) {c : EndCause}
    {items : Bool} (hg : (e.act c items).ending = .goes) : (e.act c items).engine.Sound := by
  have record : (e.takeCause c).record.isSome := by
    have := h.record_isSome (by rcases hs with hs | hs <;> rw [hs] <;> decide)
    simpa [Engine.takeCause] using this
  have template : (e.takeCause c).template.Sound := by rw [e.takeCause_template]; exact h.2.2
  rcases e.act_cases c items with takeover | cut | ⟨positive, release⟩
  · rw [takeover]
    exact Engine.beginTakeover_sound record h.2.1 template ⟨rfl, rfl⟩
  · rw [cut] at hg
    cases hg
  · rw [release]
    exact Engine.beginRelease_sound record h.2.1 template ⟨rfl, rfl⟩ rfl positive h.endLength_le

theorem Engine.Sound.squeezeOn {e : Engine} (h : e.Sound) (hs : e.state = .squeeze) (b : Bool) :
    (e.squeezeOn b).Sound := by
  obtain ⟨state, rects, template⟩ := h
  unfold Engine.StateSound at state
  rw [hs] at state
  obtain ⟨record, move, -, -, watch⟩ := state
  have counted : e.counted.MoveSound true := move
  obtain ⟨shown, promo, pgm, next⟩ := counted.advance
  unfold Engine.squeezeOn
  dsimp only
  split
  · refine Engine.enterHeld_sound ?_ ?_ b
    · rw [Engine.advance_record]; exact record
    · rw [Engine.advance_template]; exact template
  · rename_i hk
    refine ⟨?_, shown, by rw [Engine.advance_template]; exact template⟩
    unfold Engine.StateSound
    rw [Engine.advance_state, show e.counted.state = .squeeze from hs]
    refine ⟨?_, next (by simpa using hk), pgm, promo, ?_⟩
    · rw [Engine.advance_record]; exact record
    · simp [Engine.counted, hs, watch]

/-- The engine's work leaves a sound engine where the junction goes on (R32, R35, R41 to R43). -/
theorem Engine.Sound.work {e : Engine} (h : e.Sound) {items emptyList : Bool}
    (hg : (e.work items emptyList).ending = .goes) : (e.work items emptyList).engine.Sound := by
  have whole := h
  obtain ⟨state, rects, template⟩ := h
  unfold Engine.StateSound at state
  unfold Engine.work at hg ⊢
  dsimp only at hg ⊢
  cases hst : e.state with
  | idle | armed => exact whole
  | squeeze =>
    simp only [hst] at hg ⊢
    cases hc : e.causeAt with
    | some c =>
      simp only [hc] at hg ⊢
      exact whole.act (.inl hst) hg
    | none => exact whole.squeezeOn hst emptyList
  | held =>
    simp only [hst] at hg ⊢
    cases hc : e.causeAt with
    | some c =>
      simp only [hc] at hg ⊢
      exact whole.act (.inr hst) hg
    | none =>
      refine ⟨?_, rects, template⟩
      unfold Engine.StateSound
      rw [hst] at state
      rw [show e.counted.state = .held from hst]
      exact state
  | release =>
    simp only [hst] at hg ⊢ state
    obtain ⟨record, move, -, -, stopped, marker⟩ := state
    obtain ⟨shown, promo, pgm, next⟩ := move.advance
    split
    · rename_i hk
      rw [if_pos hk] at hg
      cases hg
    · rename_i hk
      refine ⟨?_, shown, by rw [Engine.advance_template]; exact template⟩
      unfold Engine.StateSound
      rw [Engine.advance_state, hst]
      refine ⟨by simpa using record, next (by simpa using hk), pgm, promo, ?_, by simpa using marker⟩
      simpa [Engine.CountersStopped] using stopped
  | takeover =>
    simp only [hst] at hg ⊢ state
    obtain ⟨record, move, -, -, stopped⟩ := state
    obtain ⟨shown, promo, pgm, next⟩ := move.advance
    have advanced : e.advance.CountersStopped := by simpa [Engine.CountersStopped] using stopped
    split
    · exact whole
    · split
      · exact Engine.enterPromoFull_sound (by simpa using record) (by rw [Engine.advance_template]; exact template)
          advanced
      · rename_i hk
        refine ⟨?_, shown, by rw [Engine.advance_template]; exact template⟩
        unfold Engine.StateSound
        rw [Engine.advance_state, hst]
        exact ⟨by simpa using record, next (by simpa using hk), by simpa using pgm, promo, advanced⟩
  | promoFull =>
    simp only [hst]
    split <;> exact whole

theorem Engine.takeCause_record_isSome (e : Engine) (c : EndCause) :
    (e.takeCause c).record.isSome = e.record.isSome := by simp [Engine.takeCause]

theorem Engine.beginTakeover_record (e : Engine) : e.beginTakeover.record = e.record := by
  unfold Engine.beginTakeover
  split
  · rfl
  · exact Engine.showMove_record _

theorem Engine.act_record_isSome (e : Engine) (c : EndCause) (items : Bool) :
    (e.act c items).engine.record.isSome = e.record.isSome := by
  rcases e.act_cases c items with takeover | cut | ⟨-, release⟩
  · rw [takeover, Engine.beginTakeover_record, e.takeCause_record_isSome]
  · rw [cut, e.takeCause_record_isSome]
  · rw [release]
    exact e.takeCause_record_isSome c

theorem Engine.enterHeld_record (e : Engine) (b : Bool) : (e.enterHeld b).record = e.record := by
  cases b <;> rfl

/-- The engine's work keeps its record. -/
theorem Engine.work_record_isSome (e : Engine) (items emptyList : Bool) :
    (e.work items emptyList).engine.record.isSome = e.record.isSome := by
  unfold Engine.work
  dsimp only
  cases e.state with
  | idle | armed => rfl
  | squeeze =>
    cases e.causeAt with
    | some c => exact e.act_record_isSome c items
    | none =>
      dsimp only [Engine.squeezeOn]
      split
      · rw [Engine.enterHeld_record, Engine.advance_record]
        rfl
      · rw [Engine.advance_record]
        rfl
  | held =>
    cases e.causeAt with
    | some c => exact e.act_record_isSome c items
    | none => rfl
  | release => dsimp only; split <;> simp
  | takeover =>
    dsimp only
    split
    · rfl
    · split <;> simp [Engine.enterPromoFull]
  | promoFull => dsimp only; split <;> rfl

/-- RELEASE is entered by a cause taken alone (R39). -/
theorem Engine.work_release {e : Engine} {items emptyList : Bool} (hs : e.state ≠ .release)
    (hg : (e.work items emptyList).engine.state = .release) : (e.work items emptyList).tookCause = true := by
  have acts (c : EndCause) : (e.act c items).tookCause = true := by
    rcases e.act_cases c items with act | act | ⟨-, act⟩ <;> rw [act]
  unfold Engine.work at hg ⊢
  dsimp only at hg ⊢
  cases hst : e.state with
  | idle | armed => simp [hst] at hg
  | release => exact absurd hst hs
  | squeeze =>
    simp only [hst] at hg ⊢
    cases hc : e.causeAt with
    | some c => exact acts c
    | none =>
      simp only [hc] at hg
      unfold Engine.squeezeOn at hg
      dsimp only at hg
      split at hg
      · rw [Engine.enterHeld_state] at hg
        cases hg
      · rw [Engine.advance_state] at hg
        exact absurd (hst.symm.trans hg) (by decide)
  | held =>
    simp only [hst] at hg ⊢
    cases hc : e.causeAt with
    | some c => exact acts c
    | none =>
      simp only [hc] at hg
      exact absurd (hst.symm.trans hg) (by decide)
  | takeover =>
    simp only [hst] at hg
    split at hg
    · exact absurd (hst.symm.trans hg) (by decide)
    · split at hg
      · cases hg
      · rw [Engine.advance_state] at hg
        exact absurd (hst.symm.trans hg) (by decide)
  | promoFull =>
    simp only [hst] at hg
    split at hg <;> exact absurd (hst.symm.trans hg) (by decide)

end Sys2Proof.Machine
end

section
/-!
PROOFS. Sound engines through the operations of a channel, and with the templates of the library through every step (R56).
-/

namespace Sys2Proof.Machine

/-! ### The start event, by its outcomes -/

/-- The scalers the start event leaves the engine with (R93). -/
def State.startGrant (s : State) (ch : Channel) : Nat := (claimScalers ch (templateStep ch s)).2

/-- The state in which the start event judges the scalers: the template in use, the claim made, the grant test run and the
grant recorded (R27, R28, R93). -/
def State.claimed (s : State) (ch : Channel) : State :=
  (grantTest (claimScalers ch (templateStep ch s)).1).modRecord ch ({ · with granted := s.startGrant ch })

/-- A start event finds no record, or it misses for lack of a scaler, or it begins the junction (R27 to R30). -/
theorem startEvent_cases (ch : Channel) (s : State) :
    ((s.claimed ch).chan ch).engine.record = none ∧ startEvent ch s = (s.claimed ch, .goes) ∨
      ∃ r, ((s.claimed ch).chan ch).engine.record = some r ∧
        ((s.startGrant ch = 0 ∧ (r.requested ≠ 0 ∨ ((s.claimed ch).chan ch).engine.template.p = 1)) ∧
            startEvent ch s = ((s.claimed ch).raise ch .missed, .cut .missedNoScaler) ∨
          ¬ (s.startGrant ch = 0 ∧ (r.requested ≠ 0 ∨ ((s.claimed ch).chan ch).engine.template.p = 1)) ∧
            startEvent ch s =
              ((s.claimed ch).modChan ch fun c => (c.assignScalers (s.startGrant ch)).startJunction r.firstBank,
                .goes)) := by
  have unfolded : startEvent ch s =
      match ((s.claimed ch).chan ch).engine.record with
      | none => (s.claimed ch, .goes)
      | some r =>
        if s.startGrant ch = 0 ∧ (r.requested ≠ 0 ∨ ((s.claimed ch).chan ch).engine.template.p = 1) then
          ((s.claimed ch).raise ch .missed, .cut .missedNoScaler)
        else
          ((s.claimed ch).modChan ch fun c => (c.assignScalers (s.startGrant ch)).startJunction r.firstBank,
            .goes) := rfl
  rw [unfolded]
  cases hr : ((s.claimed ch).chan ch).engine.record with
  | none => exact .inl ⟨rfl, rfl⟩
  | some r =>
    refine .inr ⟨r, rfl, ?_⟩
    dsimp only
    split
    · exact .inl ⟨‹_›, rfl⟩
    · exact .inr ⟨‹_›, rfl⟩

theorem agreesButGrants_claimed (ch : Channel) (s : State) : AgreesButGrants (templateStep ch s) (s.claimed ch) :=
  ((agreesButGrants_claimScalers ch _).trans (agreesButGrants_grantTest _)).trans
    (agreesButGrants_modRecord _ ch ⟨fun _ => s.startGrant ch, rfl⟩)

theorem othersKept_claimed (ch : Channel) (s : State) : State.OthersKept ch s (s.claimed ch) :=
  (((State.OthersKept.templateStep ch s).trans (.claimScalers ch _)).trans (.grantTest ch _)).trans
    (.modRecord ch ({ · with granted := s.startGrant ch }) _)

/-! ### Grants -/

/-- Every engine is sound. -/
def State.EnginesSound (s : State) : Prop := ∀ ch, (s.chan ch).engine.Sound

theorem AgreesButGrants.engine_sound {s t : State} (h : AgreesButGrants s t) {ch : Channel}
    (hs : (s.chan ch).engine.Sound) : (t.chan ch).engine.Sound := by
  obtain ⟨f, ⟨n, rfl⟩, hf⟩ := h.2.2.2.2.2.2.2 ch
  rw [hf]
  exact hs.modRecord fun _ => rfl

theorem State.StandsOrGranted.engine_sound {c : Channel} {s t : State} (h : State.StandsOrGranted c s t)
    (hs : (s.chan c).engine.Sound) : (t.chan c).engine.Sound := by
  rcases h with ⟨chan, -⟩ | ⟨-, -, -, chan⟩ <;> rw [chan]
  · exact hs
  · exact hs.modRecord fun _ => rfl

/-- An operation of one channel keeps the engines sound when it keeps that channel's. -/
theorem State.EnginesSound.of_own {ch : Channel} {s t : State} (hs : s.EnginesSound) (h : State.OthersKept ch s t)
    (own : (t.chan ch).engine.Sound) : t.EnginesSound := fun c => by
  by_cases hc : c = ch
  · exact hc ▸ own
  · exact State.StandsOrGranted.engine_sound (h.others c hc) (hs c)

/-! ### The operations of a channel, on its own engine -/

section
variable {ch : Channel} {s : State}

theorem serveFetch_engine_sound (f : Fetch) {s : State} (hl : s.library.TemplatesSound) (hs : s.EnginesSound) :
    (serveFetch f s).EnginesSound := by
  have content : ((s.library.content f.slot).getD fallbackLayout).Sound := by
    cases hc : s.library.content f.slot with
    | none => exact fallbackLayout_sound
    | some t => exact LibOk.content (ok := Template.Sound) hl fallbackLayout_sound hc
  unfold serveFetch
  refine hs.of_own (.modChan f.channel _ s) ?_
  rw [State.chan_modChan_same]
  exact (hs f.channel).putTemplate content fun _ => rfl

theorem fetchArrival_engine_sound (slot : Nat) (hl : s.library.TemplatesSound) (hs : s.EnginesSound) :
    (fetchArrival ch slot s).EnginesSound := by
  have own : ∀ l f, (State.setFetch { s with library := l } ch f).EnginesSound := fun l f => by
    refine State.EnginesSound.of_own (s := { s with library := l }) hs (.setFetch ch f _) ?_
    rw [State.setFetch_chan_engine]
    exact hs ch
  unfold fetchArrival
  dsimp only
  split
  · exact own _ _
  · split
    · exact serveFetch_engine_sound _ hl hs
    · exact own _ _

theorem armTest_engine_sound (ch : Channel) {s : State} (hl : s.library.TemplatesSound) (hs : s.EnginesSound) :
    (armTest ch s).EnginesSound := by
  unfold armTest
  dsimp only
  split
  · rename_i e rest hi _
    split
    · unfold armEntry
      dsimp only
      intro x
      refine (agreesButGrants_scalerRequest ch _ _ _).engine_sound ?_
      refine fetchArrival_engine_sound (ch := ch) e.slot ?_ ?_ x
      · exact hl
      · refine hs.of_own (.modChan ch _ s) ?_
        rw [State.chan_modChan_same]
        exact (hs ch).arm hi rfl
    · exact hs
  · exact hs

theorem releaseClaim_engine_sound (ch : Channel) {s : State} (hs : s.EnginesSound) :
    (releaseClaim ch s).EnginesSound := fun c => (agreesButGrants_releaseClaim ch s).engine_sound (hs c)

theorem withdrawFetch_engine_sound (ch : Channel) {s : State} (hs : s.EnginesSound) :
    (withdrawFetch ch s).EnginesSound := by
  refine hs.of_own (.withdrawFetch ch s) ?_
  unfold withdrawFetch
  rw [State.setFetch_chan_engine]
  exact hs ch

/-- A junction end leaves sound engines whatever the engine it ends, if the other engines are sound. -/
theorem endWith_engine_sound (o : JunctionOutcome) {lists : ChannelState → ChannelState}
    (hlists : ∀ c, (lists c).engine = c.engine) (hl : s.library.TemplatesSound)
    (hs : ∀ c, c ≠ ch → (s.chan c).engine.Sound) (hr : (s.chan ch).engine.record.isSome) :
    (endWith ch o lists s).EnginesSound := by
  unfold endWith
  obtain ⟨r, hr⟩ := Option.isSome_iff_exists.mp hr
  simp only [hr]
  have released := (State.OthersKept.releaseClaim ch s).trans (.withdrawFetch ch _)
  refine armTest_engine_sound ch ?_ fun c => ?_
  · have library := (agreesButGrants_releaseClaim ch s).library
    have kept : (releaseClaim ch s).library.TemplatesSound := by rw [library]; exact hl
    exact kept
  · by_cases hc : c = ch
    · subst hc
      rw [State.chan_modChan_same]
      unfold ChannelState.afterEnd
      rw [hlists]
      exact Engine.idle_sound
    · rw [State.chan_modChan_ne _ hc]
      exact State.StandsOrGranted.engine_sound (released.others c hc) (hs c hc)

theorem finishEnd_engine_sound {fe : FrameEnd} (hl : s.library.TemplatesSound)
    (hs : ∀ c, c ≠ ch → (s.chan c).engine.Sound) (hr : fe ≠ .goes → (s.chan ch).engine.record.isSome)
    (own : fe = .goes → (s.chan ch).engine.Sound) : (finishEnd ch fe s).EnginesSound := by
  cases fe with
  | goes =>
    intro c
    by_cases hc : c = ch
    · exact hc ▸ own rfl
    · exact hs c hc
  | cut o => exact endWith_engine_sound o (fun _ => rfl) hl hs (hr nofun)
  | ends o => exact endWith_engine_sound o (fun _ => rfl) hl hs (hr nofun)

theorem templateStep_engine_sound (ch : Channel) {s : State} (hs : s.EnginesSound) :
    (templateStep ch s).EnginesSound := by
  refine hs.of_own (.templateStep ch s) ?_
  unfold templateStep
  split
  · rw [State.chan_modChan_same]
    exact (withdrawFetch_engine_sound ch hs ch).putTemplate fallbackLayout_sound fun _ => rfl
  · rw [State.chan_modChan_same]
    exact hs ch

theorem claimed_engine_sound (ch : Channel) {s : State} (hs : s.EnginesSound) : (s.claimed ch).EnginesSound := fun c =>
  (agreesButGrants_claimed ch s).engine_sound (templateStep_engine_sound ch hs c)

theorem claimed_engine_state (ch : Channel) (s : State) :
    ((s.claimed ch).chan ch).engine.state = (s.chan ch).engine.state :=
  ((agreesButGrants_claimed ch s).engineState ch).trans (templateStep_engineState ch ch s)

/-- The junction begun from a sound ARMED engine is sound (R28 to R30). -/
theorem startJunction_engine_sound {c : ChannelState} (h : c.engine.Sound) (ha : c.engine.state = .armed) (g : Nat)
    (b : BankId) : ((c.assignScalers g).startJunction b).engine.Sound := by
  have state := h.1
  unfold Engine.StateSound at state
  rw [ha] at state
  obtain ⟨r, hr⟩ := state
  have banked : ((c.assignScalers g).bankStep b).engine.record.isSome ∧
      ((c.assignScalers g).bankStep b).engine.watch = none ∧
      ((c.assignScalers g).bankStep b).engine.template = c.engine.template := by
    unfold ChannelState.bankStep
    split
    · exact ⟨by simp [ChannelState.assignScalers, hr], by simp [ChannelState.assignScalers, hr, Engine.idle],
        Engine.template_modRecord fun _ => rfl⟩
    · exact ⟨by simp [ChannelState.assignScalers, hr], by simp [ChannelState.assignScalers, hr, Engine.idle], rfl⟩
  obtain ⟨record, watch, template⟩ := banked
  exact Engine.counterStep_sound record watch (by rw [template]; exact h.2.2) _

/-- A start event leaves sound engines; one that does not go on leaves its engine a record. -/
theorem startEvent_engine_sound (hs : s.EnginesSound) (ha : (s.chan ch).engine.state = .armed) :
    (startEvent ch s).1.EnginesSound ∧
      ((startEvent ch s).2 ≠ .goes → ((startEvent ch s).1.chan ch).engine.record.isSome) := by
  have claimed := claimed_engine_sound ch hs
  rcases startEvent_cases ch s with ⟨-, he⟩ | ⟨r, hr, ⟨-, he⟩ | ⟨-, he⟩⟩ <;> rw [he]
  · exact ⟨claimed, fun h => absurd rfl h⟩
  · have engine : (((s.claimed ch).raise ch .missed).chan ch).engine = ((s.claimed ch).chan ch).engine :=
      State.modReporter_chan_engine ..
    refine ⟨claimed.of_own (.modReporter ch (·.raise .missed) _) ?_, fun _ => ?_⟩
    · exact engine.symm ▸ claimed ch
    · exact engine.symm ▸ (by rw [hr]; rfl)
  · dsimp only
    refine ⟨claimed.of_own (.modChan ch _ _) ?_, fun h => absurd rfl h⟩
    rw [State.chan_modChan_same]
    exact startJunction_engine_sound (claimed ch) ((claimed_engine_state ch s).trans ha) _ _

/-! ### The junction's work -/

theorem ChannelState.withList_engine (c : ChannelState) (p : PromoList) (r : ListReport) :
    ∃ f : JunctionRecord → JunctionRecord, (∀ j, (f j).template = j.template) ∧
      (c.withList p r).engine = c.engine.modRecord f := by
  unfold ChannelState.withList
  dsimp only
  split
  · exact ⟨fun j => { j with itemsPlayed := countStart j.itemsPlayed }, fun _ => rfl, rfl⟩
  · exact ⟨fun j => j, fun _ => rfl, (Engine.modRecord_id _).symm⟩

/-- The list's work leaves a sound engine: items played are counted, and LIST_END is marked in a state that looks for an
end (R37, R46). -/
theorem ChannelState.listed_engine_sound {c : ChannelState} (h : c.engine.Sound) (p : PromoList) (r : ListReport)
    {b : Bool} (hb : b = true → c.engine.state.advancesItems = true) : ((c.withList p r).markIf b).engine.Sound := by
  obtain ⟨f, hf, he⟩ := c.withList_engine p r
  have listed : (c.withList p r).engine.Sound := by rw [he]; exact h.modRecord hf
  cases b with
  | false => exact listed
  | true => exact listed.marker (by rw [withList_engine_state]; exact hb rfl) _

/-- The turn's result is the engine's work on one of two judgements of the list. -/
theorem ChannelState.turn_result (c : ChannelState) (v : PromoValidity) :
    ∃ items, (c.turn v).result = c.engine.work items c.emptyList := by
  unfold ChannelState.turn
  dsimp only
  split
  · split <;> exact ⟨_, rfl⟩
  · exact ⟨_, rfl⟩

/-- A list taken in RELEASE tells nothing (R81). -/
theorem PromoList.work_release (carries : Bool) (v : PromoValidity) (p : PromoList) :
    (p.work .release carries v).2 = .none := rfl

theorem ChannelState.turn_report_release {c : ChannelState} (h : c.engine.state = .release) (v : PromoValidity) :
    (c.turn v).report = .none := by
  unfold ChannelState.turn
  dsimp only
  simp only [h, PromoList.work_release]
  split
  · split <;> rfl
  · rfl

/-- The engine's work at an event of a running junction leaves the engine running. -/
theorem Engine.work_running {e : Engine} {items emptyList : Bool} (hi : e.state ≠ .idle) (ha : e.state ≠ .armed) :
    (e.work items emptyList).engine.state ≠ .idle ∧ (e.work items emptyList).engine.state ≠ .armed := by
  have acts (c : EndCause) (hs : e.state ≠ .idle ∧ e.state ≠ .armed) :
      (e.act c items).engine.state ≠ .idle ∧ (e.act c items).engine.state ≠ .armed := by
    rcases e.act_cases c items with act | act | ⟨-, act⟩ <;> rw [act]
    · dsimp only [Engine.beginTakeover]
      split
      · exact ⟨nofun, nofun⟩
      · rw [Engine.showMove_state]
        exact ⟨nofun, nofun⟩
    · exact hs
    · dsimp only [Engine.beginRelease]
      rw [Engine.showMove_state]
      exact ⟨nofun, nofun⟩
  unfold Engine.work
  dsimp only
  cases hst : e.state with
  | idle => exact absurd hst hi
  | armed => exact absurd hst ha
  | squeeze =>
    cases e.causeAt with
    | some c => exact acts c ⟨hi, ha⟩
    | none =>
      dsimp only [Engine.squeezeOn]
      split
      · rw [Engine.enterHeld_state]
        exact ⟨nofun, nofun⟩
      · rw [Engine.advance_state]
        exact ⟨hi, ha⟩
  | held =>
    cases e.causeAt with
    | some c => exact acts c ⟨hi, ha⟩
    | none => exact ⟨hi, ha⟩
  | release => dsimp only; split <;> simp [hst]
  | takeover =>
    dsimp only
    split
    · exact ⟨hi, ha⟩
    · split <;> simp [hst, Engine.enterPromoFull]
  | promoFull => dsimp only; split <;> exact ⟨hi, ha⟩

/-- LIST_END is marked in a state that looks for an end: neither at the event that enters RELEASE nor in it (R37). -/
theorem ChannelState.turn_marks {c : ChannelState} {v : PromoValidity} (hi : c.engine.state ≠ .idle)
    (ha : c.engine.state ≠ .armed) (hs : (c.turn v).result.engine.Sound) (hm : (c.turn v).marks = true) :
    (c.turn v).result.engine.state.advancesItems = true := by
  obtain ⟨items, hr⟩ := c.turn_result v
  have exhausted : (c.turn v).report.exhausted = true ∧ (c.turn v).result.tookCause = false := by
    simp only [Turn.marks, Bool.and_eq_true, Bool.not_eq_true'] at hm
    exact hm.1
  have running : c.engine.state ≠ .release := fun h => by
    rw [turn_report_release h] at exhausted
    cases exhausted.1
  have entered : (c.turn v).result.engine.state ≠ .release := fun h => by
    have took := Engine.work_release running (hr ▸ h)
    rw [hr, took] at exhausted
    cases exhausted.2
  have moving : (c.turn v).result.engine.state ≠ .idle ∧ (c.turn v).result.engine.state ≠ .armed := by
    rw [hr]
    exact Engine.work_running hi ha
  cases hst : (c.turn v).result.engine.state with
  | idle => exact absurd hst moving.1
  | armed => exact absurd hst moving.2
  | release => exact absurd hst entered
  | squeeze | held | takeover | promoFull => rfl

end

end Sys2Proof.Machine
end

section
/-!
PROOFS. Every window stays drawable through every step: the junction's work, the library's work and the resets.
-/

namespace Sys2Proof.Machine

/-! ### The junction's work at an event -/

section
variable {ch : Channel} {s : State}

/-- The work of a running junction is its turn, and the junction end where the turn ends the junction. -/
theorem junctionFrame_of_running (v : PromoValidity) (hi : (s.chan ch).engine.state ≠ .idle)
    (ha : (s.chan ch).engine.state ≠ .armed) :
    (junctionFrame ch v s).1 =
      finishEnd ch ((s.chan ch).turn v).result.ending (s.setChan ch ((s.chan ch).runOn v).1) := by
  have ran : (s.chan ch).runOn v = (((s.chan ch).runOn v).1, ((s.chan ch).turn v).result.ending) := rfl
  unfold junctionFrame
  split
  · exact absurd ‹_› hi
  · exact absurd ‹_› ha
  · rw [ran]
    cases ((s.chan ch).turn v).result.ending <;> rfl

theorem ChannelState.listed_record_isSome (c : ChannelState) (p : PromoList) (r : ListReport) (b : Bool) :
    ((c.withList p r).markIf b).engine.record.isSome = c.engine.record.isSome := by
  obtain ⟨f, -, he⟩ := c.withList_engine p r
  cases b
  · exact (congrArg (fun e => Option.isSome (Engine.record e)) he).trans (by simp)
  · exact (congrArg (fun e => Option.isSome (Engine.record e)) he).trans (by simp)

theorem ChannelState.runOn_engine_sound {c : ChannelState} (h : c.engine.Sound) (hi : c.engine.state ≠ .idle)
    (ha : c.engine.state ≠ .armed) {v : PromoValidity} (hg : (c.turn v).result.ending = .goes) :
    (c.runOn v).1.engine.Sound := by
  obtain ⟨items, hr⟩ := c.turn_result v
  have worked : (c.turn v).result.engine.Sound := by
    rw [hr] at hg ⊢
    exact h.work hg
  exact ChannelState.listed_engine_sound (c := c.withEngine (c.turn v).result.engine) worked _ _ (turn_marks hi ha worked)

theorem ChannelState.runOn_record_isSome {c : ChannelState} (h : c.engine.Sound) (hi : c.engine.state ≠ .idle)
    (v : PromoValidity) : (c.runOn v).1.engine.record.isSome := by
  obtain ⟨items, hr⟩ := c.turn_result v
  have worked : (c.turn v).result.engine.record.isSome := by
    rw [hr, Engine.work_record_isSome]
    exact h.record_isSome hi
  exact (ChannelState.listed_record_isSome (c.withEngine (c.turn v).result.engine) ..).trans worked

theorem startEvent_templatesSound (ch : Channel) (hl : s.library.TemplatesSound) :
    (startEvent ch s).1.library.TemplatesSound := startEvent_library (ok := Template.Sound) ch hl

theorem junctionFrame_engine_sound (v : PromoValidity) (hl : s.library.TemplatesSound) (hs : s.EnginesSound) :
    (junctionFrame ch v s).1.EnginesSound := by
  by_cases hi : (s.chan ch).engine.state = .idle
  · unfold junctionFrame
    rw [hi]
    exact hs
  by_cases ha : (s.chan ch).engine.state = .armed
  · have started := startEvent_engine_sound hs ha
    have library := startEvent_templatesSound ch hl
    unfold junctionFrame
    rw [ha]
    dsimp only
    split
    · rename_i due
      split
      · rename_i he
        have goes := startEvent_goes he (startDue_record due)
        rw [he] at started
        refine started.1.of_own (.modChan ch (·.countItem v) _) ?_
        rw [State.chan_modChan_same]
        refine ChannelState.listed_engine_sound (started.1 ch) _ _ fun _ => ?_
        rcases goes with hst | hst <;> rw [hst] <;> rfl
      · rename_i fe hne he
        rw [he] at started library
        exact finishEnd_engine_sound library (fun c _ => started.1 c) started.2 fun _ => started.1 ch
    · exact hs
  · rw [junctionFrame_of_running v hi ha]
    refine finishEnd_engine_sound hl (fun c hc => ?_) (fun _ => ?_) fun hg => ?_
    · rw [State.chan_setChan_ne _ hc]
      exact hs c
    · rw [State.chan_setChan_same]
      exact ChannelState.runOn_record_isSome (hs ch) hi v
    · rw [State.chan_setChan_same]
      exact ChannelState.runOn_engine_sound (hs ch) hi ha hg

theorem engineWork_engine_sound (hl : s.library.TemplatesSound) (hs : s.EnginesSound) :
    (engineWork ch s).EnginesSound := by
  unfold engineWork
  dsimp only
  split
  · rename_i ha
    have started := startEvent_engine_sound hs ha
    split
    · exact finishEnd_engine_sound (startEvent_templatesSound ch hl) (fun c _ => started.1 c) started.2
        fun _ => started.1 ch
    · exact hs
  · rename_i ha
    refine finishEnd_engine_sound hl (fun c hc => ?_) (fun hg => ?_) fun hg => ?_
    · rw [State.chan_modChan_ne _ hc]
      exact hs c
    · rw [State.chan_modChan_same]
      refine (Engine.work_record_isSome ..).trans ((hs ch).record_isSome fun hi => hg ?_)
      unfold Engine.work
      rw [hi]
    · rw [State.chan_modChan_same]
      exact (hs ch).work hg

/-! ### The notices of a SET_TIME, the library's work -/

theorem missUnless_engine_sound (o : JunctionOutcome) (keep : Entry → Bool) (hs : s.EnginesSound) :
    (missUnless ch o keep s).EnginesSound := by
  have missed (l : List Entry) (u : State) : ((l.foldl (missOne ch o) u).chan ch).engine = (u.chan ch).engine := by
    induction l generalizing u with
    | nil => rfl
    | cons e l ih => exact (ih _).trans (State.modReporter_chan_engine ..)
  refine hs.of_own (.missUnless ch o keep s) ?_
  unfold missUnless
  rw [missed, State.chan_modChan_same]
  exact hs ch

theorem jumpSchedule_engine_sound (hs : s.EnginesSound) : (jumpSchedule ch s).EnginesSound := by
  unfold jumpSchedule
  dsimp only
  have missed := missUnless_engine_sound (ch := ch) .missedTimeJump
    (fun e => ahead e.start s.ref.sfc || decide (e.start = s.ref.sfc)) hs
  refine missed.of_own ((State.OthersKept.modReporter ch (·.raise .timeJump) _).trans (.modChan ch _ _)) ?_
  rw [State.chan_modChan_same]
  dsimp only
  rw [show ((State.raise _ ch .timeJump).chan ch).engine = _ from State.modReporter_chan_engine ..]
  exact missed ch

theorem jumpChannel_engine_sound (hl : s.library.TemplatesSound) (hs : s.EnginesSound) :
    (jumpChannel s ch).EnginesSound := by
  unfold jumpChannel jumpEngine
  have armed : (armTest ch (jumpSchedule ch s)).EnginesSound :=
    armTest_engine_sound ch (by rw [jumpSchedule_library]; exact hl) (jumpSchedule_engine_sound hs)
  refine armed.of_own (.modChan ch _ _) ?_
  rw [State.chan_modChan_same]
  split
  · exact (armed ch).modRecord fun _ => rfl
  · exact armed ch

theorem jumps_engine_sound (l : List Channel) {s : State} (hl : s.library.TemplatesSound) (hs : s.EnginesSound) :
    (l.foldl jumpChannel s).EnginesSound := by
  induction l generalizing s with
  | nil => exact hs
  | cons ch l ih => exact ih (jumpChannel_libOk (ok := Template.Sound) ch hl) (jumpChannel_engine_sound hl hs)

theorem grantTest_engine_sound (hs : s.EnginesSound) : (grantTest s).EnginesSound := fun c =>
  (agreesButGrants_grantTest s).engine_sound (hs c)

theorem serveAll_engine_sound (fs : List Fetch) {s : State} (hl : s.library.TemplatesSound) (hs : s.EnginesSound) :
    (serveAll fs s).EnginesSound := by
  unfold serveAll
  induction fs generalizing s with
  | nil => exact hs
  | cons f fs ih => exact ih (s := serveFetch f s) hl (serveFetch_engine_sound f hl hs)

theorem libraryWork_engine_sound (hl : s.library.TemplatesSound) (hs : s.EnginesSound) :
    (libraryWork s).EnginesSound := by
  unfold libraryWork
  split
  · rename_i f rest _
    exact serveFetch_engine_sound f
      (s := { s with library := { s.library with fetchQueue := rest, suspended := s.library.operation.isSome } }) hl hs
  · dsimp only
    split
    · exact hs
    · rename_i fl hfl
      split
      · unfold completeOperation
        dsimp only
        refine serveAll_engine_sound _ ?_ fun c => ?_
        · exact LibOk.applyOperation (ok := Template.Sound) (op := fl.op)
            (s := { s with library := { s.library with suspended := false } }) hl fun i t hop => hl.2.2 fl i t hfl hop
        · have := hs c
          unfold State.chan at this ⊢
          dsimp only
          rwa [applyOperation_channels]
      · exact hs

/-! ### Every change -/

/-- A change of one channel that leaves its engine as it is leaves the engines sound. -/
theorem State.EnginesSound.modChan_same (hs : s.EnginesSound) {f : ChannelState → ChannelState}
    (hf : (f (s.chan ch)).engine = (s.chan ch).engine) : (s.modChan ch f).EnginesSound :=
  hs.of_own (.modChan ch f s) (by rw [State.chan_modChan_same, hf]; exact hs ch)

theorem ChannelState.countLoad_engine (c : ChannelState) : c.countLoad.engine = c.engine := by
  unfold countLoad
  split
  · rfl
  · split <;> rfl

theorem ChannelState.appendItems_engine (c : ChannelState) (x : LoadContext) (its : List Item) :
    (c.appendItems x its).engine = c.engine := by
  unfold appendItems
  dsimp only
  split <;> rfl

/-- A list taken where the state advances items leaves a sound engine, whatever turn it comes from. -/
theorem ChannelState.takeList_engine_sound {c : ChannelState} (h : c.engine.Sound)
    (hs : c.engine.state.advancesItems = true) (t : Turn) : (c.takeList t).engine.Sound :=
  listed_engine_sound h _ _ fun _ => hs

theorem Change.engines_sound {t : State} (h : Change s t) (hl : s.library.TemplatesSound) (hs : s.EnginesSound) :
    t.EnginesSound := by
  cases h with
  | raise ch | record ch | append ch | clearMask ch | readback ch | disarm ch | skip ch | addressing ch | armReset ch
  | countArm ch | countPacket ch | newFrame ch | output ch | insert ch | keepEntries ch | tolerance ch | openLoad ch
  | dropLoad ch | compose ch => exact hs.modChan_same (ch := ch) rfl
  | appendItems ch x its => exact hs.modChan_same (ChannelState.appendItems_engine _ x its)
  | countLoad ch => exact hs.modChan_same (ChannelState.countLoad_engine _)
  | status ch v => exact hs.modChan_same (ch := ch) rfl
  | volatileSlot | storeFail | protection | management | reference | judge => exact hs
  | startOperation op => rw [startOperation_eq]; exact hs
  | libraryWork => exact libraryWork_engine_sound hl hs
  | openFrame =>
    intro ch
    unfold Machine.openFrame
    rw [State.chan_mapChans]
    exact hs ch
  | setTime v =>
    rw [setTimeBody_fst]
    exact grantTest_engine_sound (jumps_engine_sound _ (s := s.atTime v) hl hs)
  | grantTest => exact grantTest_engine_sound hs
  | armTest ch => exact armTest_engine_sound ch hl hs
  | markEnd ch hst =>
    refine hs.of_own (.modChan ch _ s) ?_
    rw [State.chan_modChan_same]
    refine (hs ch).marker ?_ _
    rcases hst with hst | hst | hst <;> rw [hst] <;> rfl
  | reloadWatch ch w hst hw =>
    refine hs.of_own (.modChan ch _ s) ?_
    rw [State.chan_modChan_same]
    exact (hs ch).reloadWatch hst _
  | abort ch hst =>
    refine endWith_engine_sound (s := s.modChan ch (·.aborting)) .aborted (fun _ => rfl) hl (fun c hc => ?_) ?_
    · rw [State.chan_modChan_ne _ hc]
      exact hs c
    · rw [State.chan_modChan_same]
      exact (Engine.takeCause_record_isSome ..).trans ((hs ch).record_isSome hst)
  | channelReset ch =>
    unfold Machine.channelReset
    refine withdrawFetch_engine_sound ch (releaseClaim_engine_sound ch (hs.of_own (.modChan ch _ s) ?_))
    rw [State.chan_modChan_same]
    exact Engine.idle_sound
  | partReset =>
    intro ch
    unfold Machine.partReset
    rw [State.chan_mapChans]
    exact Engine.idle_sound
  | powerOn a b => intro ch; cases ch <;> exact Engine.idle_sound
  | junctionFrame ch v => exact junctionFrame_engine_sound v hl hs
  | engineWork ch => exact engineWork_engine_sound hl hs
  | takeList ch v hst =>
    refine hs.of_own (.modChan ch _ s) ?_
    rw [State.chan_modChan_same]
    exact ChannelState.takeList_engine_sound (hs ch) hst _

end

/-- Settles O8: every change keeps the templates of the library sound, and with them every engine. -/
theorem stepKeepsTheWindows : Obligations.StepKeepsTheWindows := fun _ _ sound h =>
  step_keeps (p := State.WindowsSound)
    (fun _ _ hc hs =>
      ⟨(hc.keep (ok := Template.Sound) hs.1 fallbackLayout_sound fun _ _ => templateOf_sound).1,
        hc.engines_sound hs.1 hs.2⟩)
    (fun _ _ hs => hs) h sound

end Sys2Proof.Machine
end

section
/-!
PROOFS. The banks agree with the load context and the play position (R66, R69 to R76, R80 to R85): the agreement as one
structure over a promo list, an open load context and the tally, kept by each operation of the list.
-/

namespace Sys2Proof.Machine

/-! ### The agreement, clause by clause -/

/-- The banks of a promo list agree with an open load context, and with the play position of a channel whose tally is
asserted where something plays. -/
structure PromoList.Agrees (p : PromoList) (x : Option LoadContext) (tally : Bool) : Prop where
  sound : ∀ b, (p.bank b).Sound
  loading : ∀ b, (p.bank b).state = .loading ↔ x.map LoadContext.bank = some b
  context : ∀ y, x = some y → 1 ≤ y.remaining ∧ (p.bank y.bank).items.length + y.remaining ≤ 31 ∧ 1 ≤ y.countdown ∧
    y.countdown ≤ Config.loadWindow
  playing : ∀ b, (p.bank b).state = .playing ↔ p.play.bank = some b
  cursor : p.play.bank.isSome = p.play.cursor.isSome
  item : ∀ b c, p.play.bank = some b → p.play.cursor = some c → c.index < (p.bank b).items.length
  running : p.play.bank.isSome → tally = true

theorem ChannelState.loadAgrees_iff (c : ChannelState) :
    c.LoadAgrees ↔
      (∀ b, (c.promo.bank b).state = .loading ↔ c.parser.context.map LoadContext.bank = some b) ∧
        ∀ y, c.parser.context = some y → 1 ≤ y.remaining ∧ (c.promo.bank y.bank).items.length + y.remaining ≤ 31 ∧
          1 ≤ y.countdown ∧ y.countdown ≤ Config.loadWindow := by
  unfold LoadAgrees
  cases c.parser.context with
  | none => simp
  | some x => simp [eq_comm (a := x.bank)]

theorem ChannelState.playAgrees_iff (c : ChannelState) :
    c.PlayAgrees ↔
      (∀ b, (c.promo.bank b).state = .playing ↔ c.promo.play.bank = some b) ∧
        c.promo.play.bank.isSome = c.promo.play.cursor.isSome ∧
          (∀ b cur, c.promo.play.bank = some b → c.promo.play.cursor = some cur →
            cur.index < (c.promo.bank b).items.length) ∧
          (c.promo.play.bank.isSome → c.engine.state.tally = true) := by
  unfold PlayAgrees
  cases c.promo.play.bank with
  | none => cases c.promo.play.cursor <;> simp
  | some x => cases c.promo.play.cursor <;> simp [eq_comm (a := x)]

theorem ChannelState.banksSound_iff (c : ChannelState) :
    c.BanksSound ↔ c.promo.Agrees c.parser.context c.engine.state.tally := by
  unfold BanksSound
  rw [loadAgrees_iff, playAgrees_iff]
  exact ⟨fun ⟨hb, ⟨hl, hc⟩, hp, hcur, hi, hr⟩ => ⟨hb, hl, hc, hp, hcur, hi, hr⟩,
    fun ⟨hb, hl, hc, hp, hcur, hi, hr⟩ => ⟨hb, ⟨hl, hc⟩, hp, hcur, hi, hr⟩⟩

/-! ### Banks -/

theorem PromoList.bank_setBank (p : PromoList) (b b' : BankId) (v : Bank) :
    (p.setBank b v).bank b' = if b' = b then v else p.bank b' := by
  split
  · rename_i h
    rw [h, bank_setBank_same]
  · rename_i h
    exact p.bank_setBank_ne v h

theorem Bank.empty_sound : Bank.empty.Sound := ⟨Nat.zero_le _, fun _ => ⟨rfl, rfl⟩, nofun⟩

/-- A bank whose state becomes neither EMPTY nor READY stays sound. -/
theorem Bank.Sound.withState {b : Bank} (h : b.Sound) {st : BankState} (he : st ≠ .empty) (hr : st ≠ .ready) :
    ({ b with state := st } : Bank).Sound := ⟨h.1, fun hst => absurd hst he, fun hst => absurd hst hr⟩

theorem Bank.loading_sound {b : Bank} (hs : b.state = .loading) (hl : b.items.length ≤ 31) : b.Sound := by
  unfold Bank.Sound
  rw [hs]
  exact ⟨hl, nofun, nofun⟩

theorem Bank.ready_sound {b : Bank} (hs : b.state = .ready) (hl : b.items.length ≤ 31) (hi : b.items ≠ []) :
    b.Sound := by
  unfold Bank.Sound
  rw [hs]
  exact ⟨hl, nofun, fun _ => hi⟩

namespace PromoList.Agrees

variable {p : PromoList} {x : Option LoadContext} {tally : Bool}

/-- The tally matters only while something plays. -/
theorem mono (h : p.Agrees x tally) {t : Bool} (ht : tally = true → t = true) : p.Agrees x t :=
  { h with running := fun hp => ht (h.running hp) }

theorem atReset (t : Bool) : PromoList.atReset.Agrees none t where
  sound b := by cases b <;> exact Bank.empty_sound
  loading b := by cases b <;> simp [PromoList.atReset, PromoList.bank, Bank.empty]
  context := nofun
  playing b := by cases b <;> simp [PromoList.atReset, PromoList.bank, Bank.empty, Play.none]
  cursor := rfl
  item := nofun
  running := nofun

theorem not_playing (h : p.Agrees x false) : p.play.bank = none :=
  Option.not_isSome_iff_eq_none.mp fun hp => by simpa using h.running hp

/-- The context's bank is LOADING, so nothing of it plays. -/
theorem loading_ne (h : p.Agrees x tally) {y : LoadContext} (hx : x = some y) :
    (p.bank y.bank).state = .loading ∧ p.play.bank ≠ some y.bank := by
  have loads : (p.bank y.bank).state = .loading := (h.loading y.bank).mpr (by rw [hx]; rfl)
  refine ⟨loads, fun hp => ?_⟩
  rw [(h.playing _).mpr hp] at loads
  cases loads

/-! ### The play position -/

/-- The counters and the phase of the current item change. -/
theorem setCursor (h : p.Agrees x tally) {c c' : Cursor} (hc : p.play.cursor = some c) (hi : c'.index = c.index) :
    (p.setCursor c').Agrees x tally where
  sound := h.sound
  loading := h.loading
  context := h.context
  playing := h.playing
  cursor := by
    have := h.cursor
    rw [hc] at this
    exact this
  item b d hb hd := by
    cases hd
    rw [hi]
    exact h.item b c hb hc
  running := h.running

/-- The next item of the bank in play starts. -/
theorem startItem (h : p.Agrees x tally) {b : BankId} (hb : p.play.bank = some b) {i : Nat}
    (hi : i < (p.bank b).items.length) (n : Nat) : (p.startItem b i n).Agrees x tally where
  sound := h.sound
  loading := h.loading
  context := h.context
  playing b' := (h.playing b').trans (by rw [hb]; rfl)
  cursor := by simp [PromoList.startItem, List.getElem?_eq_getElem hi]
  item b' c hb' hc := by
    cases hb'
    simp only [PromoList.startItem, List.getElem?_eq_getElem hi, Option.map_some, Option.some.injEq] at hc
    rw [← hc]
    exact hi
  running _ := h.running (by rw [hb]; rfl)

/-- A READY bank begins to play where no bank plays (R77, R82). -/
theorem playBank (sound : ∀ b, (p.bank b).Sound) (loading : ∀ b, (p.bank b).state = .loading ↔
      x.map LoadContext.bank = some b)
    (context : ∀ y, x = some y → 1 ≤ y.remaining ∧ (p.bank y.bank).items.length + y.remaining ≤ 31 ∧ 1 ≤ y.countdown ∧
      y.countdown ≤ Config.loadWindow)
    (none : ∀ b, (p.bank b).state ≠ .playing) {b : BankId} (hb : (p.bank b).state = .ready) (n : Nat) :
    ((p.setBankState b .playing).startItem b 0 n).Agrees x true := by
  have banks (b' : BankId) : ((p.setBankState b .playing).startItem b 0 n).bank b' =
      if b' = b then { p.bank b with state := .playing } else p.bank b' := p.bank_setBank b b' _
  have items (b' : BankId) : (((p.setBankState b .playing).startItem b 0 n).bank b').items = (p.bank b').items := by
    rw [banks]
    split
    · rename_i h
      rw [h]
    · rfl
  have first : 0 < (p.bank b).items.length := List.length_pos_iff.mpr ((sound b).2.2 hb)
  have cursor : ((p.setBankState b .playing).startItem b 0 n).play.cursor =
      some (Cursor.starting 0 ((p.bank b).items[0]'first)) := by
    have : ((p.setBankState b .playing).bank b).items = (p.bank b).items := items b
    simp [PromoList.startItem, this, List.getElem?_eq_getElem first]
  refine ⟨fun b' => ?_, fun b' => ?_, fun y hy => ?_, fun b' => ?_, ?_, fun b' c hb' hc => ?_, fun _ => rfl⟩
  · rw [banks]
    split
    · exact (sound b).withState nofun nofun
    · exact sound b'
  · rw [banks, ← loading b']
    split
    · rename_i h
      rw [h, hb]
      exact ⟨nofun, nofun⟩
    · rfl
  · rw [items]
    exact context y hy
  · rw [banks]
    split
    · rename_i h
      rw [h]
      exact ⟨fun _ => rfl, fun _ => rfl⟩
    · rename_i h
      exact ⟨fun hp => absurd hp (none b'), fun hp => absurd (Option.some.inj hp).symm h⟩
  · rw [cursor]
    rfl
  · cases hb'
    rw [cursor] at hc
    cases hc
    rw [items]
    exact first

/-- Play begins (R77). -/
theorem begin (h : p.Agrees x false) {b : BankId} (hb : (p.bank b).state = .ready) : (p.begin b).Agrees x true :=
  playBank h.sound h.loading h.context (fun b' hp => by
    have := (h.playing b').mp hp
    rw [h.not_playing] at this
    cases this) hb 1

/-- The other bank takes over from the one that has ended (R82). -/
theorem swap (h : p.Agrees x tally) {b : BankId} (hb : p.play.bank = some b) (ho : (p.bank b.other).state = .ready)
    (n : Nat) : (((p.setBankState b .spent).setBankState b.other .playing).startItem b.other 0 n).Agrees x true := by
  have banks (b' : BankId) : (p.setBankState b .spent).bank b' =
      if b' = b then { p.bank b with state := .spent } else p.bank b' := p.bank_setBank b b' _
  have plays : (p.bank b).state = .playing := (h.playing b).mpr hb
  refine playBank (fun b' => ?_) (fun b' => ?_) (fun y hy => ?_) (fun b' => ?_) ?_ n
  · rw [banks]
    split
    · exact (h.sound b).withState nofun nofun
    · exact h.sound b'
  · rw [banks, ← h.loading b']
    split
    · rename_i hb'
      rw [hb', plays]
      exact ⟨nofun, nofun⟩
    · rfl
  · have items : ((p.setBankState b .spent).bank y.bank).items = (p.bank y.bank).items := by
      rw [banks]
      split
      · rename_i hb'
        rw [hb']
      · rfl
    rw [items]
    exact h.context y hy
  · rw [banks]
    split
    · exact nofun
    · rename_i hb'
      exact fun hp => hb' (Option.some.inj (((h.playing b').mp hp).symm.trans hb))
  · rw [banks, if_neg b.other_ne]
    exact ho

theorem successor (h : p.Agrees x tally) : p.successor.1.Agrees x tally := by
  unfold PromoList.successor
  split
  · rename_i b c hb hc
    split
    · split
      · exact h.startItem hb ‹_› _
      · split
        · have asserted : tally = true := h.running (by rw [hb]; rfl)
          rw [asserted]
          exact h.swap hb ‹_› _
        · exact h.setCursor hc rfl
    · exact h
  · exact h

theorem finish (h : p.Agrees x tally) (b : BankId) {c c' : Cursor} (hc : p.play.cursor = some c)
    (hi : c'.index = c.index) : (p.finish b c').1.Agrees x tally := by
  unfold PromoList.finish
  dsimp only
  split
  · exact h.setCursor hc hi
  · split
    · split <;> exact h.setCursor hc hi
    · exact h.setCursor hc hi

theorem tick_index (c : Cursor) (b : Bool) : (c.tick b).index = c.index := by
  unfold Cursor.tick
  split <;> rfl

theorem count (h : p.Agrees x tally) (v : PromoValidity) : (p.count v).1.Agrees x tally := by
  unfold PromoList.count
  split
  · rename_i b c i hb hc _
    split
    · dsimp only
      split
      · exact h.finish b hc (tick_index c _)
      · exact h.setCursor hc (tick_index c _)
    · exact h
  · exact h

theorem countReleasing (h : p.Agrees x tally) (v : PromoValidity) : (p.countReleasing v).Agrees x tally := by
  unfold PromoList.countReleasing
  split
  · rename_i c i hc _
    split
    · exact h.setCursor hc (tick_index c _)
    · exact h
  · exact h

theorem work (h : p.Agrees x tally) (st : EngineState) (carries : Bool) (v : PromoValidity) :
    (p.work st carries v).1.Agrees x tally := by
  unfold PromoList.work
  split
  · cases carries with
    | true => exact h.successor.count v
    | false => exact h.count v
  · split
    · exact h.countReleasing v
    · exact h

theorem turn {c : ChannelState} (h : c.promo.Agrees x tally) (v : PromoValidity) : (c.turn v).list.Agrees x tally := by
  unfold ChannelState.turn
  dsimp only
  split
  · split <;> exact h.work ..
  · exact h.work ..

/-! ### The end of a junction -/

theorem endPlay (h : p.Agrees x tally) (t : Bool) : p.endPlay.Agrees x t := by
  have banks (b : BankId) : p.endPlay.bank b = (p.bank b).afterJunction := by cases b <;> rfl
  have items (b : BankId) : ((p.bank b).afterJunction).items = (p.bank b).items := by
    unfold Bank.afterJunction
    split <;> rfl
  refine ⟨fun b => ?_, fun b => ?_, fun y hy => ?_, fun b => ?_, rfl, nofun, nofun⟩
  · rw [banks]
    unfold Bank.afterJunction
    split
    · exact (h.sound b).withState nofun nofun
    · exact h.sound b
  · rw [banks, ← h.loading b]
    unfold Bank.afterJunction
    split
    · rename_i hp
      rw [hp]
      exact ⟨nofun, nofun⟩
    · rfl
  · rw [banks, items]
    exact h.context y hy
  · rw [banks]
    unfold Bank.afterJunction
    split
    · exact ⟨nofun, nofun⟩
    · exact ⟨fun hp => absurd hp ‹_›, nofun⟩

/-! ### Loading -/

/-- A bank that does not play replaced by one in another state, with the load context to match. -/
theorem setBank (h : p.Agrees x tally) {b : BankId} (hb : (p.bank b).state ≠ .playing) {v : Bank} (hv : v.Sound)
    (hp : v.state ≠ .playing) {x' : Option LoadContext}
    (hl : ∀ b', (if b' = b then v.state else (p.bank b').state) = .loading ↔ x'.map LoadContext.bank = some b')
    (hc : ∀ y, x' = some y → 1 ≤ y.remaining ∧ ((p.setBank b v).bank y.bank).items.length + y.remaining ≤ 31 ∧
      1 ≤ y.countdown ∧ y.countdown ≤ Config.loadWindow) : (p.setBank b v).Agrees x' tally where
  sound b' := by
    rw [bank_setBank]
    split
    · exact hv
    · exact h.sound b'
  loading b' := by
    rw [bank_setBank, ← hl b']
    split <;> rfl
  context := hc
  playing b' := by
    rw [bank_setBank, setBank_play, ← h.playing b']
    split
    · rename_i hb'
      rw [hb']
      exact ⟨fun e => absurd e hp, fun e => absurd e hb⟩
    · rfl
  cursor := by rw [setBank_play]; exact h.cursor
  item b' c hb' hc' := by
    rw [setBank_play] at hb' hc'
    have other : b' ≠ b := fun e => hb ((h.playing b).mpr (e ▸ hb'))
    rw [bank_setBank, if_neg other]
    exact h.item b' c hb' hc'
  running := by rw [setBank_play]; exact h.running

/-- The load of the open context dropped (R75, R76). -/
theorem dropLoad (h : p.Agrees x tally) {y : LoadContext} (hx : x = some y) :
    (p.setBank y.bank .empty).Agrees none tally := by
  have loads := h.loading_ne hx
  have silent : (p.bank y.bank).state ≠ .playing := by rw [loads.1]; exact nofun
  refine h.setBank silent Bank.empty_sound (v := .empty) (fun e => by cases e) (fun b' => ?_) (fun z hz => by cases hz)
  split
  · exact ⟨nofun, nofun⟩
  · rename_i hb'
    rw [h.loading b', hx]
    exact ⟨fun e => absurd (Option.some.inj e).symm hb', nofun⟩

/-- A bank that does not play opened, with no context open on another (R70). -/
theorem openBank (h : p.Agrees x tally) {b : BankId} (hx : ∀ y, x = some y → y.bank = b)
    (hb : (p.bank b).state ≠ .playing) {count : Nat} (hn : 1 ≤ count ∧ count ≤ 31) (chain : Bool) :
    (p.setBank b { state := .loading, items := [], chain := chain }).Agrees
      (some { bank := b, remaining := count, countdown := Config.loadWindow }) tally := by
  refine h.setBank hb (Bank.loading_sound rfl (Nat.zero_le _)) (fun e => by cases e) (fun b' => ?_) fun y hy => ?_
  · split
    · rename_i hb'
      rw [hb']
      exact ⟨fun _ => rfl, fun _ => rfl⟩
    · rename_i hb'
      rw [h.loading b']
      refine ⟨fun e => ?_, fun e => absurd (Option.some.inj e).symm hb'⟩
      obtain ⟨y, hy, rfl⟩ := Option.map_eq_some_iff.mp e
      exact absurd (hx y hy) hb'
  · cases hy
    rw [bank_setBank_same]
    exact ⟨hn.1, by simpa using hn.2, show 1 ≤ Config.loadWindow by decide, Nat.le_refl _⟩

end PromoList.Agrees

/-! ### The changes of a channel -/

namespace ChannelState.BanksSound

variable {c : ChannelState}

theorem openLoad (h : c.BanksSound) {b : BankId} (hb : (c.promo.bank b).state ≠ .playing) {count : Nat}
    (hn : 1 ≤ count ∧ count ≤ 31) (f : Bool) : (c.openLoad b count f).BanksSound := by
  rw [banksSound_iff] at h ⊢
  unfold ChannelState.openLoad
  dsimp only
  split
  · rename_i x hx
    split
    · rename_i hbank
      exact h.openBank (fun y hy => by rw [hx] at hy; cases hy; exact hbank) hb hn f
    · rename_i hbank
      refine (h.dropLoad hx).openBank nofun ?_ hn f
      rw [PromoList.bank_setBank_ne _ _ fun e => hbank e.symm]
      exact hb
  · rename_i hx
    exact h.openBank (fun y hy => by rw [hx] at hy; cases hy) hb hn f

theorem appendItems (h : c.BanksSound) {x : LoadContext} (hx : c.parser.context = some x) {its : List Item}
    (hn : its.length ≤ x.remaining) : (c.appendItems x its).BanksSound := by
  rw [banksSound_iff] at h ⊢
  obtain ⟨some_left, fits, counting⟩ := h.context x hx
  obtain ⟨loads, -⟩ := h.loading_ne hx
  have silent : (c.promo.bank x.bank).state ≠ .playing := by rw [loads]; exact nofun
  have lone (b' : BankId) (hb' : b' ≠ x.bank) : (c.promo.bank b').state ≠ .loading := fun e => by
    have := (h.loading b').mp e
    rw [hx] at this
    exact hb' (Option.some.inj this).symm
  have length : ((c.promo.bank x.bank).items ++ its).length ≤ 31 := by rw [List.length_append]; omega
  unfold ChannelState.appendItems
  dsimp only
  split
  · rename_i hsealed
    refine h.setBank silent (Bank.ready_sound rfl length fun hempty => ?_) (fun e => by cases e) (fun b' => ?_)
      (fun z hz => by cases hz)
    · have := congrArg List.length hempty
      simp only [List.length_append, List.length_nil] at this
      omega
    · split
      · exact ⟨nofun, nofun⟩
      · exact ⟨fun e => absurd e (lone b' ‹_›), nofun⟩
  · rename_i more
    refine h.setBank (v := { c.promo.bank x.bank with items := (c.promo.bank x.bank).items ++ its }) silent
      (Bank.loading_sound loads length) silent (fun b' => ?_) fun y hy => ?_
    · dsimp only
      split
      · rename_i hb'
        rw [hb']
        exact ⟨fun _ => rfl, fun _ => loads⟩
      · rename_i hb'
        exact ⟨fun e => absurd e (lone b' hb'), fun e => absurd (Option.some.inj e).symm hb'⟩
    · cases hy
      rw [PromoList.bank_setBank_same]
      simp only [List.length_append]
      exact ⟨by omega, by omega, by decide, Nat.le_refl _⟩

theorem countLoad (h : c.BanksSound) : c.countLoad.BanksSound := by
  rw [banksSound_iff] at h ⊢
  unfold ChannelState.countLoad
  split
  · exact h
  · rename_i x hx
    split
    · exact h.dropLoad hx
    · obtain ⟨left, fits, -, window⟩ := h.context x hx
      refine { h with loading := fun b => ?_, context := fun y hy => ?_ }
      · rw [h.loading b, hx]
        rfl
      · cases hy
        exact ⟨left, fits, by dsimp only; omega, by dsimp only; omega⟩

/-- The banks see the promo list, the load context and whether the tally is asserted. -/
theorem of_list {d : ChannelState} (h : c.promo.Agrees c.parser.context c.engine.state.tally)
    (hd : d.promo = c.promo) (hx : d.parser.context = c.parser.context)
    (ht : c.engine.state.tally = true → d.engine.state.tally = true) : d.BanksSound := by
  rw [banksSound_iff, hd, hx]
  exact h.mono ht

end ChannelState.BanksSound

theorem Engine.tally_of_running {e : Engine} (h : e.state ≠ .idle ∧ e.state ≠ .armed) : e.state.tally = true := by
  obtain ⟨hi, ha⟩ := h
  cases hst : e.state with
  | idle => exact absurd hst hi
  | armed => exact absurd hst ha
  | squeeze | held | release | takeover | promoFull => rfl

theorem Engine.work_tally {e : Engine} (items emptyList : Bool) (h : e.state.tally = true) :
    (e.work items emptyList).engine.state.tally = true := by
  refine Engine.tally_of_running (Engine.work_running ?_ ?_) <;> intro hst <;> rw [hst] at h <;> cases h

theorem ChannelState.banksSound_bankStep {c : ChannelState} (h : c.promo.Agrees c.parser.context false) (b : BankId) :
    (c.bankStep b).promo.Agrees c.parser.context true := by
  unfold bankStep
  split
  · exact h.begin ‹_›
  · exact h.mono nofun

/-- Every change of a channel's blocks keeps its banks sound. -/
theorem ChanChange.banks_sound {ok : Template → Prop} {c d : ChannelState} (h : ChanChange ok c d)
    (hs : c.BanksSound) : d.BanksSound := by
  have agrees := c.banksSound_iff.mp hs
  cases h with
  | raise | record | append | clearMask | readback | disarm | skip | addressing | armReset | countPacket | output
  | schedule | fetch | fields | copy | takeLook | markEnd | reloadWatch | aborting | compose | status | newFrame =>
    exact .of_list agrees rfl rfl id
  | countArm =>
    refine .of_list agrees rfl ?_ id
    dsimp only [Parser.countArm]
    split <;> rfl
  | arm r hi hr =>
    refine .of_list agrees rfl rfl fun ht => ?_
    rw [hi] at ht
    cases ht
  | start g r ha hr =>
    rw [ha] at agrees
    rw [ChannelState.banksSound_iff, ChannelState.startJunction_promo, ChannelState.startJunction_parser]
    refine (ChannelState.banksSound_bankStep (c := c.assignScalers g) agrees r.firstBank).mono fun _ => ?_
    rcases Engine.counterStep_state ((c.assignScalers g).bankStep r.firstBank).engine
      ((c.assignScalers g).bankStep r.firstBank).promo.play.bank.isNone with hst | hst <;>
      exact (congrArg EngineState.tally hst).trans rfl
  | spent l r hr => exact (ChannelState.banksSound_iff _).mpr (agrees.endPlay _)
  | emptied | channelReset | partReset | powerOn =>
    exact (ChannelState.banksSound_iff _).mpr (PromoList.Agrees.atReset _)
  | openLoad b count f hn hb => exact hs.openLoad hb hn f
  | appendItems x its hx hn => exact hs.appendItems hx hn
  | dropLoad x hx => exact (ChannelState.banksSound_iff _).mpr (agrees.dropLoad hx)
  | countLoad => exact hs.countLoad
  | runOn v hi ha =>
    rw [ChannelState.banksSound_iff, ChannelState.runOn_promo, ChannelState.runOn_parser,
      ChannelState.runOn_engine_state]
    refine (agrees.turn v).mono fun ht => ?_
    obtain ⟨items, hr⟩ := c.turn_result v
    rw [hr]
    exact Engine.work_tally items _ ht
  | engineWork ha => exact .of_list agrees rfl rfl (Engine.work_tally _ _)
  | countItem v hst =>
    rw [ChannelState.banksSound_iff, ChannelState.countItem_promo, ChannelState.countItem_parser,
      ChannelState.countItem_engine_state]
    exact agrees.count v
  | takeList v hst =>
    rw [ChannelState.banksSound_iff, ChannelState.takeList_promo, ChannelState.takeList_parser,
      ChannelState.takeList_engine_state]
    exact agrees.turn v

/-- Settles O10: the banks of a channel are kept sound by every change of its blocks. -/
theorem stepKeepsTheBanks : Obligations.StepKeepsTheBanks := fun _ _ sound h =>
  step_keeps_channels (p := ChannelState.BanksSound) (fun _ _ hc => hc.banks_sound) h sound

end Sys2Proof.Machine
end

section
/-!
PROOFS. Every schedule stays in order against the SFC (R1, R4). Most changes only take entries out; an insert puts one in
at its place, and where the SFC changes the entries are put in order again.
-/

namespace Sys2Proof.Machine

/-! ### Operations that take entries out of schedules -/

/-- The SFC stands, and every schedule keeps its tolerance and loses entries at most. -/
def SchedulesShrink (s t : State) : Prop :=
  t.ref.sfc = s.ref.sfc ∧ ∀ ch, (t.chan ch).schedule.tolerance = (s.chan ch).schedule.tolerance ∧
    (t.chan ch).schedule.entries.Sublist (s.chan ch).schedule.entries

theorem Schedule.Sound.shrink {sfc : FrameValue} {x y : Schedule} (h : x.Sound sfc) (ht : y.tolerance = x.tolerance)
    (he : y.entries.Sublist x.entries) : y.Sound sfc := by
  obtain ⟨length, tolerance, entries, order⟩ := h
  exact ⟨he.length_le.trans length, ht ▸ tolerance, fun e hm => entries e (he.subset hm), order.sublist he⟩

namespace SchedulesShrink

theorem sound {s t : State} (h : SchedulesShrink s t) (hs : s.SchedulesSound) : t.SchedulesSound := fun ch => by
  rw [h.1]
  exact (hs ch).shrink (h.2 ch).1 (h.2 ch).2

theorem refl (s : State) : SchedulesShrink s s := ⟨rfl, fun _ => ⟨rfl, .refl _⟩⟩

theorem trans {s t u : State} (h : SchedulesShrink s t) (h' : SchedulesShrink t u) : SchedulesShrink s u :=
  ⟨h'.1.trans h.1, fun ch => ⟨(h'.2 ch).1.trans (h.2 ch).1, (h'.2 ch).2.trans (h.2 ch).2⟩⟩

theorem of_schedules {s t : State} (hr : t.ref.sfc = s.ref.sfc)
    (h : ∀ ch, (t.chan ch).schedule = (s.chan ch).schedule) : SchedulesShrink s t :=
  ⟨hr, fun ch => by rw [h ch]; exact ⟨rfl, .refl _⟩⟩

theorem of_channels {s t : State} (hr : t.ref.sfc = s.ref.sfc) (h : t.channels = s.channels) : SchedulesShrink s t :=
  of_schedules hr fun ch => by unfold State.chan; rw [h]

theorem of_grants {s t : State} (h : AgreesButGrants s t) : SchedulesShrink s t :=
  of_schedules (congrArg RefCounter.sfc h.1) fun ch => by
    obtain ⟨f, -, hf⟩ := h.2.2.2.2.2.2.2 ch
    rw [hf]

variable {s : State} {ch : Channel}

theorem modChan {f : ChannelState → ChannelState}
    (ht : (f (s.chan ch)).schedule.tolerance = (s.chan ch).schedule.tolerance)
    (he : (f (s.chan ch)).schedule.entries.Sublist (s.chan ch).schedule.entries) :
    SchedulesShrink s (s.modChan ch f) := by
  refine ⟨rfl, fun c => ?_⟩
  by_cases hc : c = ch
  · subst hc
    rw [State.chan_modChan_same]
    exact ⟨ht, he⟩
  · rw [State.chan_modChan_ne _ hc]
    exact ⟨rfl, .refl _⟩

theorem modChan_same {f : ChannelState → ChannelState} (hf : (f (s.chan ch)).schedule = (s.chan ch).schedule) :
    SchedulesShrink s (s.modChan ch f) := modChan (by rw [hf]) (by rw [hf])

theorem setFetch {s t : State} (hr : t.ref.sfc = s.ref.sfc) (h : t.channels = s.channels) (f : FetchState) :
    SchedulesShrink s (t.setFetch ch f) := (of_channels hr h).trans (modChan_same rfl)

theorem serveFetch (f : Fetch) (s : State) : SchedulesShrink s (serveFetch f s) := modChan_same rfl

theorem serveAll (fs : List Fetch) (s : State) : SchedulesShrink s (serveAll fs s) := by
  unfold Machine.serveAll
  induction fs generalizing s with
  | nil => exact refl s
  | cons f fs ih => exact (serveFetch f s).trans (ih _)

theorem fetchArrival (ch : Channel) (slot : Nat) (s : State) : SchedulesShrink s (fetchArrival ch slot s) := by
  unfold Machine.fetchArrival
  dsimp only
  split
  · exact setFetch rfl rfl _
  · split
    · exact serveFetch _ s
    · exact setFetch rfl rfl _

theorem withdrawFetch (ch : Channel) (s : State) : SchedulesShrink s (withdrawFetch ch s) := setFetch rfl rfl _

theorem armTest (ch : Channel) (s : State) : SchedulesShrink s (armTest ch s) := by
  unfold Machine.armTest
  dsimp only
  split
  · rename_i e rest _ he
    split
    · unfold armEntry
      dsimp only
      refine (modChan rfl ?_).trans ((fetchArrival ch _ _).trans (of_grants (agreesButGrants_scalerRequest ch _ _ _)))
      rw [he]
      exact List.sublist_cons_self e rest
    · exact refl s
  · exact refl s

theorem missUnless (ch : Channel) (o : JunctionOutcome) (keep : Entry → Bool) (s : State) :
    SchedulesShrink s (missUnless ch o keep s) := by
  have missed (l : List Entry) (u : State) : SchedulesShrink u (l.foldl (missOne ch o) u) := by
    induction l generalizing u with
    | nil => exact refl u
    | cons e l ih => exact (modChan_same rfl).trans (ih _)
  unfold Machine.missUnless
  dsimp only
  exact (modChan rfl List.filter_sublist).trans (missed _ _)

theorem endWith (ch : Channel) (o : JunctionOutcome) {lists : ChannelState → ChannelState}
    (hl : ∀ c, (lists c).schedule = c.schedule) (s : State) : SchedulesShrink s (endWith ch o lists s) := by
  unfold Machine.endWith
  split
  · exact refl s
  · rename_i r _
    dsimp only
    exact ((of_grants (agreesButGrants_releaseClaim ch s)).trans (withdrawFetch ch _)).trans
      ((modChan_same (f := (·.afterEnd lists (r.last o))) (hl _)).trans (armTest ch _))

theorem finishEnd (ch : Channel) (fe : FrameEnd) (s : State) : SchedulesShrink s (finishEnd ch fe s) := by
  cases fe with
  | goes => exact refl s
  | cut o => exact endWith ch o (lists := ChannelState.spendBank) (fun _ => rfl) s
  | ends o => exact endWith ch o (lists := ChannelState.spendBank) (fun _ => rfl) s

theorem templateStep (ch : Channel) (s : State) : SchedulesShrink s (templateStep ch s) := by
  unfold Machine.templateStep
  split
  · exact (withdrawFetch ch s).trans (modChan_same rfl)
  · exact modChan_same rfl

theorem startEvent (ch : Channel) (s : State) : SchedulesShrink s (startEvent ch s).1 := by
  have claimed := (templateStep ch s).trans (of_grants (agreesButGrants_claimed ch s))
  rcases startEvent_cases ch s with ⟨-, he⟩ | ⟨r, -, ⟨-, he⟩ | ⟨-, he⟩⟩ <;> rw [he]
  · exact claimed
  · exact claimed.trans (modChan_same rfl)
  · exact claimed.trans (modChan_same (by simp))

theorem junctionFrame (ch : Channel) (v : PromoValidity) (s : State) : SchedulesShrink s (junctionFrame ch v s).1 := by
  by_cases hi : (s.chan ch).engine.state = .idle
  · unfold Machine.junctionFrame
    rw [hi]
    exact refl s
  by_cases ha : (s.chan ch).engine.state = .armed
  · have started := startEvent ch s
    unfold Machine.junctionFrame
    rw [ha]
    dsimp only
    split
    · split
      · rename_i he
        rw [he] at started
        exact started.trans (modChan_same (by simp))
      · rename_i he
        rw [he] at started
        exact started.trans (finishEnd ch _ _)
    · exact refl s
  · rw [junctionFrame_of_running v hi ha]
    have ran : SchedulesShrink s (s.setChan ch ((s.chan ch).runOn v).1) :=
      modChan_same (f := fun c => (c.runOn v).1) (by simp)
    exact ran.trans (finishEnd ch _ _)

theorem engineWork (ch : Channel) (s : State) : SchedulesShrink s (engineWork ch s) := by
  unfold Machine.engineWork
  dsimp only
  split
  · split
    · exact (startEvent ch s).trans (finishEnd ch _ _)
    · exact refl s
  · exact (modChan_same rfl).trans (finishEnd ch _ _)

theorem libraryWork (s : State) : SchedulesShrink s (libraryWork s) := by
  unfold Machine.libraryWork
  split
  · exact (of_channels rfl rfl).trans (serveFetch _ _)
  · dsimp only
    split
    · exact of_channels rfl rfl
    · split
      · unfold completeOperation
        dsimp only
        refine (of_channels ?_ ?_).trans (serveAll _ _)
        · rw [applyOperation_eq]
        · exact applyOperation_channels _ _
      · exact of_channels rfl rfl

end SchedulesShrink

/-! ### Entries put in -/

/-- A watch window stored lies between 1 and 250 (R3). -/
theorem watchOf_range {o : Option Nat} {w : Nat} (h : watchOf o = some (some w)) : 1 ≤ w ∧ w ≤ Config.maxWatch := by
  rcases o with _ | _ | n
  · cases h
  · cases h
  · cases h
    exact ⟨Nat.le_min.mpr ⟨Nat.succ_pos n, by decide⟩, Nat.min_le_right _ _⟩

/-- An insert's fields in range make a sound entry (R3). -/
theorem entryOf_sound {start : FrameValue} {late : Bool} {l : Nat} {f : InsertFields} {e : Entry}
    (h : entryOf start late l f = some e) (hl : l ≤ Config.maxTolerance) : e.Sound := by
  unfold entryOf at h
  split at h
  · cases h
  · rename_i slot
    split at h
    · rename_i watch _ _ hw
      cases h
      refine ⟨by dsimp only; omega, fun w hw' => watchOf_range (hw.trans (congrArg some hw')), hl⟩
    · cases h

theorem Schedule.Sound.insert {sfc : FrameValue} {x : Schedule} (h : x.Sound sfc) {e : Entry} (he : e.Sound)
    (hd : ∀ g ∈ x.entries, g.start ≠ e.start) (hf : x.entries.length < Config.scheduleSize) :
    ({ x with entries := insertEntry sfc e x.entries } : Schedule).Sound sfc := by
  obtain ⟨-, tolerance, entries, order⟩ := h
  refine ⟨?_, tolerance, fun g hg => ?_, inOrder_insertEntry order hd⟩
  · rw [length_insertEntry]
    exact hf
  · rcases mem_insertEntry.mp hg with rfl | hg
    · exact he
    · exact entries g hg

/-! ### Entries put in order again -/

/-- A schedule that is sound but for the order of its entries, which have distinct start frames. -/
def Schedule.Orderable (x : Schedule) : Prop :=
  x.entries.length ≤ Config.scheduleSize ∧ x.tolerance ≤ Config.maxTolerance ∧ (∀ e ∈ x.entries, e.Sound) ∧
    x.entries.Pairwise fun e f => e.start ≠ f.start

theorem Schedule.Sound.orderable {sfc : FrameValue} {x : Schedule} (h : x.Sound sfc) : x.Orderable :=
  ⟨h.1, h.2.1, h.2.2.1, InOrder.distinct h.2.2.2⟩

theorem Schedule.Orderable.ordered {x : Schedule} (h : x.Orderable) (sfc : FrameValue) :
    ({ x with entries := orderEntries sfc x.entries } : Schedule).Sound sfc := by
  obtain ⟨length, tolerance, entries, distinct⟩ := h
  refine ⟨?_, tolerance, fun e he => entries e (mem_orderEntries.mp he), inOrder_orderEntries distinct⟩
  rw [length_orderEntries]
  exact length

theorem Schedule.Orderable.shrink {x y : Schedule} (h : x.Orderable) (ht : y.tolerance = x.tolerance)
    (he : y.entries.Sublist x.entries) : y.Orderable := by
  obtain ⟨length, tolerance, entries, distinct⟩ := h
  exact ⟨he.length_le.trans length, ht ▸ tolerance, fun e hm => entries e (he.subset hm), distinct.sublist he⟩

/-- Entries put on time keep their start frames (R17). -/
theorem Schedule.Orderable.onTime {x : Schedule} (h : x.Orderable) :
    ({ x with entries := x.entries.map ({ · with late := false, lateness := 0 }) } : Schedule).Orderable := by
  obtain ⟨length, tolerance, entries, distinct⟩ := h
  refine ⟨by simpa using length, tolerance, fun e he => ?_, List.pairwise_map.mpr distinct⟩
  obtain ⟨g, hg, rfl⟩ := List.mem_map.mp he
  exact ⟨(entries g hg).1, (entries g hg).2.1, Nat.zero_le _⟩

theorem openFrame_schedules_sound {s : State} (hs : s.SchedulesSound) : (openFrame s).SchedulesSound := fun ch => by
  unfold openFrame
  rw [State.chan_mapChans]
  exact (hs ch).orderable.ordered _

/-- The notice of a SET_TIME leaves its channel's schedule in order (R17). -/
theorem jumpSchedule_schedule_sound {s : State} {ch : Channel} (hs : (s.chan ch).schedule.Orderable) :
    ((jumpSchedule ch s).chan ch).schedule.Sound s.ref.sfc := by
  have missed := (SchedulesShrink.missUnless ch .missedTimeJump
    (fun e => ahead e.start s.ref.sfc || decide (e.start = s.ref.sfc)) s).2 ch
  have kept := hs.shrink missed.1 missed.2
  unfold jumpSchedule
  dsimp only
  rw [State.chan_modChan_same]
  unfold State.raise
  simp only [State.modReporter_chan_schedule]
  exact kept.onTime.ordered _

theorem jumpChannel_schedule_sound {s : State} {ch : Channel} (hs : (s.chan ch).schedule.Orderable) :
    ((jumpChannel s ch).chan ch).schedule.Sound s.ref.sfc := by
  have jumped : SchedulesShrink (jumpSchedule ch s) (jumpChannel s ch) := by
    refine (SchedulesShrink.armTest ch _).trans (SchedulesShrink.modChan_same ?_)
    split <;> rfl
  exact (jumpSchedule_schedule_sound hs).shrink (jumped.2 ch).1 (jumped.2 ch).2

theorem State.StandsOrGranted.schedule {c : Channel} {s t : State} (h : State.StandsOrGranted c s t) :
    (t.chan c).schedule = (s.chan c).schedule := by
  rcases h with ⟨chan, -⟩ | ⟨-, -, -, chan⟩ <;> rw [chan]

theorem mem_noticeChannels (n : Nat) (ch : Channel) : ch ∈ noticeChannels n := by
  have every : ∀ l ∈ channelOrders, ∀ ch : Channel, ch ∈ l := by
    intro l hl ch
    revert l
    cases ch <;> decide
  unfold noticeChannels
  cases ho : channelOrders[Config.noticeOrder n % 24]? with
  | none => cases ch <;> decide
  | some l => exact every l (List.mem_of_getElem? ho) ch

/-- The notices leave the schedule of each channel they reach in order, and the others able to be ordered (R17). -/
theorem jumps_schedules_sound (l : List Channel) {s : State} (hs : ∀ ch, (s.chan ch).schedule.Orderable) (ch : Channel)
    (h : ch ∈ l ∨ (s.chan ch).schedule.Sound s.ref.sfc) :
    ((l.foldl jumpChannel s).chan ch).schedule.Sound s.ref.sfc := by
  induction l generalizing s with
  | nil => exact h.resolve_left List.not_mem_nil
  | cons x l ih =>
    have kept := State.OthersKept.jumpChannel s x
    have sfc : (jumpChannel s x).ref.sfc = s.ref.sfc := congrArg RefCounter.sfc kept.ref
    have own := jumpChannel_schedule_sound (hs x)
    have others (c : Channel) (hc : c ≠ x) : ((jumpChannel s x).chan c).schedule = (s.chan c).schedule :=
      State.StandsOrGranted.schedule (kept.others c hc)
    rw [← sfc]
    refine ih (fun c => ?_) ?_
    · by_cases hc : c = x
      · exact hc ▸ own.orderable
      · rw [others c hc]
        exact hs c
    · by_cases hc : ch = x
      · subst hc
        exact .inr (sfc.symm ▸ own)
      · rw [others ch hc, sfc]
        exact h.imp_left fun hm => (List.mem_cons.mp hm).resolve_left hc

/-! ### Every change -/

theorem Schedule.atReset_sound (sfc : FrameValue) : Schedule.atReset.Sound sfc :=
  ⟨Nat.zero_le _, by decide, fun _ he => absurd he List.not_mem_nil, .nil⟩

theorem State.SchedulesSound.modChan {s : State} (hs : s.SchedulesSound) {ch : Channel}
    {f : ChannelState → ChannelState} (hf : (f (s.chan ch)).schedule.Sound s.ref.sfc) : (s.modChan ch f).SchedulesSound :=
  fun c => by
    by_cases hc : c = ch
    · subst hc
      rw [State.chan_modChan_same]
      exact hf
    · rw [State.chan_modChan_ne _ hc]
      exact hs c

theorem ChannelState.countLoad_schedule (c : ChannelState) : c.countLoad.schedule = c.schedule := by
  unfold countLoad
  split
  · rfl
  · split <;> rfl

theorem ChannelState.appendItems_schedule (c : ChannelState) (x : LoadContext) (its : List Item) :
    (c.appendItems x its).schedule = c.schedule := by
  unfold appendItems
  dsimp only
  split <;> rfl

theorem Change.schedules_sound {s t : State} (h : Change s t) (hs : s.SchedulesSound) : t.SchedulesSound := by
  cases h with
  | raise ch | record ch | append ch | clearMask ch | readback ch | disarm ch | skip ch | addressing ch | armReset ch
  | countArm ch | countPacket ch | newFrame ch | output ch | markEnd ch | reloadWatch ch | openLoad ch | dropLoad ch
  | compose ch | status ch => exact (SchedulesShrink.modChan_same (ch := ch) rfl).sound hs
  | countLoad ch => exact (SchedulesShrink.modChan_same (ChannelState.countLoad_schedule _)).sound hs
  | appendItems ch x its => exact (SchedulesShrink.modChan_same (ChannelState.appendItems_schedule _ x its)).sound hs
  | takeList ch v => exact (SchedulesShrink.modChan_same (ch := ch) (by simp)).sound hs
  | insert ch e start late l f he hl hd hf =>
    exact hs.modChan ((hs ch).insert (entryOf_sound he (hl.trans (hs ch).2.1)) hd hf)
  | keepEntries ch keep => exact (SchedulesShrink.modChan (ch := ch) rfl List.filter_sublist).sound hs
  | tolerance ch v =>
    obtain ⟨length, -, entries, order⟩ := hs ch
    exact hs.modChan ⟨length, Nat.min_le_right _ _, entries, order⟩
  | startOperation op => rw [startOperation_eq]; exact hs
  | volatileSlot | storeFail | protection | management | judge => exact hs
  | libraryWork => exact (SchedulesShrink.libraryWork s).sound hs
  | openFrame => exact openFrame_schedules_sound hs
  | reference r hr hsfc => exact (SchedulesShrink.of_channels (t := { s with ref := r }) hsfc rfl).sound hs
  | setTime v =>
    rw [setTimeBody_fst]
    refine (SchedulesShrink.of_grants (agreesButGrants_grantTest _)).sound fun ch => ?_
    rw [(partStands_jumps _ (s.atTime v)).ref]
    exact jumps_schedules_sound _ (s := s.atTime v) (fun c => (hs c).orderable) ch (.inl (mem_noticeChannels _ ch))
  | grantTest => exact (SchedulesShrink.of_grants (agreesButGrants_grantTest s)).sound hs
  | armTest ch => exact (SchedulesShrink.armTest ch s).sound hs
  | abort ch =>
    have aborting : SchedulesShrink s (s.modChan ch (·.aborting)) := SchedulesShrink.modChan_same rfl
    exact (aborting.trans (SchedulesShrink.endWith ch .aborted (lists := ChannelState.emptyBanks) (fun _ => rfl) _)).sound hs
  | channelReset ch =>
    have cleared : (s.modChan ch fun c => c.resetBlocks c.parser.afterChannelReset).SchedulesSound :=
      hs.modChan (Schedule.atReset_sound _)
    unfold Machine.channelReset
    exact ((SchedulesShrink.of_grants (agreesButGrants_releaseClaim ch _)).trans (.withdrawFetch ch _)).sound cleared
  | partReset =>
    intro ch
    unfold Machine.partReset
    rw [State.chan_mapChans]
    exact Schedule.atReset_sound _
  | powerOn a b => intro ch; cases ch <;> exact Schedule.atReset_sound _
  | junctionFrame ch v => exact (SchedulesShrink.junctionFrame ch v s).sound hs
  | engineWork ch => exact (SchedulesShrink.engineWork ch s).sound hs

/-- Settles O9: every change takes entries out, puts one in at its place, or puts them in order against the new SFC. -/
theorem stepKeepsTheSchedules : Obligations.StepKeepsTheSchedules := fun _ _ sound h =>
  step_keeps (p := State.SchedulesSound) (fun _ _ hc hs => hc.schedules_sound hs) (fun _ _ hs => hs) h sound

end Sys2Proof.Machine
end

section
/-!
PROOFS. The operation in flight agrees with the slot states (R104, R107, R111), and the fetch queue and the set-aside list
with the fetch states (R113, R115, R116). A fetch is followed through each operation: outside the channel that works,
nothing about fetches changes.
-/

namespace Sys2Proof.Machine

/-! ### The operation in flight -/

theorem Library.OperationSound.of_eq {l m : Library} (h : l.OperationSound) (hs : m.stored = l.stored)
    (ho : m.operation = l.operation) : m.OperationSound := by
  obtain ⟨slots, short⟩ := h
  refine ⟨fun i => ?_, ho ▸ short⟩
  have : m.storedSlot i = l.storedSlot i := by unfold Library.storedSlot; rw [hs]
  rw [this, ho]
  exact slots i

/-- With no operation in flight, no slot is UNDER_OPERATION. -/
theorem operationSound_of_none {l : Library} (ho : l.operation = none) (hs : ∀ i, l.storedSlot i ≠ .underOperation) :
    l.OperationSound := by
  refine ⟨fun i => ?_, fun fl hfl => by rw [ho] at hfl; cases hfl⟩
  rw [ho]
  exact ⟨fun h => absurd h (hs i), nofun⟩

theorem Operation.length_pos (op : Operation) : 0 < op.length := by cases op <;> simp [Operation.length]

theorem StoredSlot.afterPowerOn_ne (v : StoredSlot) : v.afterPowerOn ≠ .underOperation := by cases v <;> exact nofun

theorem startOperation_operation (op : Operation) (s : State) :
    (startOperation op s).library.operation = some { op := op, progress := 0 } := by cases op <;> rfl

theorem startOperation_storedSlot_self (op : Operation) (s : State) {i : SlotIndex} (h : op.slot = some i) :
    (startOperation op s).library.storedSlot i = .underOperation := by
  unfold startOperation
  rw [h]
  exact (storedSlot_setStored _ i i _).trans (if_pos rfl)

/-- An operation accepted takes the slot it is on, and no other (R107). -/
theorem startOperation_sound {s : State} (h : s.library.OperationSound) (hn : s.library.operation = none)
    (op : Operation) : (startOperation op s).library.OperationSound := by
  obtain ⟨slots, -⟩ := h
  have idle (i : SlotIndex) : s.library.storedSlot i ≠ .underOperation := fun hi => by
    have := (slots i).mp hi
    rw [hn] at this
    cases this
  refine ⟨fun i => ?_, fun fl hfl => ?_⟩
  · rw [startOperation_operation]
    by_cases hi : op.slot = some i
    · rw [startOperation_storedSlot_self op s hi]
      exact ⟨fun _ => hi, fun _ => rfl⟩
    · rw [startOperation_storedSlot op s hi]
      exact ⟨fun hu => absurd hu (idle i), fun hs => absurd hs hi⟩
  · rw [startOperation_operation] at hfl
    cases hfl
    exact op.length_pos

theorem applyOperation_storedSlot_self (op : Operation) (s : State) {i : SlotIndex} (h : op.slot = some i) :
    (applyOperation op s).library.storedSlot i ≠ .underOperation := by
  have set (v : StoredSlot) : (Library.setStored { s.library with operation := none } i v).storedSlot i = v :=
    (storedSlot_setStored _ i i v).trans (if_pos rfl)
  cases op with
  | write j t =>
    cases h
    exact fun hu => by cases (set _).symm.trans hu
  | erase j =>
    cases h
    exact fun hu => by cases (set _).symm.trans hu
  | protectSet p => cases h

theorem libraryWork_sound {s : State} (h : s.library.OperationSound) : (libraryWork s).library.OperationSound := by
  rcases libraryWork_operation s with kept | ⟨fl, hfl, ⟨-, stored, operation, short⟩ | ⟨-, stored, operation⟩⟩
  · exact Library.OperationSound.of_eq h kept.stored kept.operation
  · have same (i : SlotIndex) : (libraryWork s).library.storedSlot i = s.library.storedSlot i := by
      unfold Library.storedSlot
      rw [stored]
    refine ⟨fun i => ?_, fun x hx => ?_⟩
    · rw [same, operation, h.1 i, hfl]
      rfl
    · rw [operation] at hx
      cases hx
      exact short
  · have same (i : SlotIndex) : (libraryWork s).library.storedSlot i = (applyOperation fl.op s).library.storedSlot i := by
      unfold Library.storedSlot
      rw [stored]
    refine operationSound_of_none operation fun i => ?_
    rw [same]
    by_cases hi : fl.op.slot = some i
    · exact applyOperation_storedSlot_self fl.op s hi
    · rw [applyOperation_storedSlot fl.op s hi]
      exact fun hu => hi (by simpa [hfl] using (h.1 i).mp hu)

theorem afterReset_sound {l : Library} {v : Vector (Option Template) 8} {q r : List Fetch} {b c : Bool} :
    ({ stored := l.slotsAfterReset, volatileSlots := v, operation := none, fetchQueue := q, setAside := r,
       storeFail := b, suspended := c } : Library).OperationSound :=
  operationSound_of_none rfl fun i => by
    rw [storedSlot_slotsAfterReset]
    exact StoredSlot.afterPowerOn_ne _

theorem Change.operation_sound {s t : State} (h : Change s t) (hs : s.library.OperationSound) :
    t.library.OperationSound := by
  rcases h.one_channel_or with ⟨ch, kept⟩ | part
  · exact Library.OperationSound.of_eq hs kept.stored kept.operation
  · cases part with
    | startOperation op hn => exact startOperation_sound hs hn op
    | libraryWork => exact libraryWork_sound hs
    | setTime v =>
      have library := (partStands_setTimeBody v s).library
      exact Library.OperationSound.of_eq hs (by rw [library]; rfl) (by rw [library]; rfl)
    | volatileSlot | storeFail | protection | management | openFrame | reference | judge => exact Library.OperationSound.of_eq hs rfl rfl
    | partReset => exact afterReset_sound
    | powerOn => exact afterReset_sound

/-! ### Fetches, clause by clause -/

/-- The engine of a channel waits for the template of its armed junction. -/
def ChannelState.Awaits (c : ChannelState) : Prop :=
  c.engine.state = .armed ∧ ∃ r, c.engine.record = some r ∧ r.template = none

/-- The fetch state of a channel says where its fetch is, and agrees with its engine. -/
structure State.FetchFits (s : State) (ch : Channel) : Prop where
  queued : ch ∈ s.library.fetchQueue.map Fetch.channel ↔ (s.chan ch).fetch = .queued
  setAside : ch ∈ s.library.setAside.map Fetch.channel ↔ (s.chan ch).fetch = .setAside
  idle : (s.chan ch).engine.state = .idle → (s.chan ch).fetch = .none
  awaits : (s.chan ch).fetch = .queued ∨ (s.chan ch).fetch = .setAside → (s.chan ch).Awaits

/-- The library's own side: one fetch to a channel, the queue behind an operation and not of its slot, the set-aside list
of its slot. -/
structure Library.FetchesFit (l : Library) : Prop where
  nodup : ((l.fetchQueue ++ l.setAside).map Fetch.channel).Nodup
  behind : l.fetchQueue ≠ [] → l.operation.isSome
  queue : ∀ f ∈ l.fetchQueue, l.operatesOn f.slot = false
  aside : ∀ f ∈ l.setAside, l.operatesOn f.slot = true

theorem State.fetchesSound_iff (s : State) : s.FetchesSound ↔ s.library.FetchesFit ∧ ∀ ch, s.FetchFits ch :=
  ⟨fun ⟨nodup, chans, behind, queue, aside⟩ =>
      ⟨⟨nodup, behind, queue, aside⟩, fun ch => ⟨(chans ch).1, (chans ch).2.1, (chans ch).2.2.1, (chans ch).2.2.2⟩⟩,
    fun ⟨⟨nodup, behind, queue, aside⟩, chans⟩ =>
      ⟨nodup, fun ch => ⟨(chans ch).1, (chans ch).2, (chans ch).3, (chans ch).4⟩, behind, queue, aside⟩⟩

/-- Fetches are sound but for what one channel holds. -/
def State.FetchesSoundBut (s : State) (ch : Channel) : Prop := s.library.FetchesFit ∧ ∀ c, c ≠ ch → s.FetchFits c

theorem State.FetchesSound.but {s : State} (h : s.FetchesSound) (ch : Channel) : s.FetchesSoundBut ch :=
  ⟨(s.fetchesSound_iff.mp h).1, fun c _ => (s.fetchesSound_iff.mp h).2 c⟩

theorem State.FetchesSound.fits {s : State} (h : s.FetchesSound) (ch : Channel) : s.FetchFits ch :=
  (s.fetchesSound_iff.mp h).2 ch

theorem State.FetchesSoundBut.add {s : State} {ch : Channel} (h : s.FetchesSoundBut ch) (own : s.FetchFits ch) :
    s.FetchesSound :=
  s.fetchesSound_iff.mpr ⟨h.1, fun c => by
    by_cases hc : c = ch
    · exact hc ▸ own
    · exact h.2 c hc⟩

/-! ### What leaves the fetches of a channel as they are -/

/-- A channel's engine may change where it stays out of IDLE and keeps waiting for its template. -/
theorem State.FetchFits.congr {s t : State} {ch : Channel} (h : s.FetchFits ch)
    (hq : t.library.fetchQueue = s.library.fetchQueue) (ha : t.library.setAside = s.library.setAside)
    (hf : (t.chan ch).fetch = (s.chan ch).fetch)
    (hi : (t.chan ch).engine.state = .idle → (s.chan ch).engine.state = .idle)
    (hw : (s.chan ch).Awaits → (t.chan ch).Awaits) : t.FetchFits ch where
  queued := by rw [hq, hf]; exact h.queued
  setAside := by rw [ha, hf]; exact h.setAside
  idle := by rw [hf]; exact fun e => h.idle (hi e)
  awaits := by rw [hf]; exact fun e => hw (h.awaits e)

theorem Library.FetchesFit.congr {l m : Library} (h : l.FetchesFit) (hq : m.fetchQueue = l.fetchQueue)
    (ha : m.setAside = l.setAside) (ho : m.operation.map InFlight.op = l.operation.map InFlight.op) : m.FetchesFit := by
  have operates (slot : Nat) : m.operatesOn slot = l.operatesOn slot := by
    unfold Library.operatesOn
    cases hm : m.operation with
    | none =>
      rw [hm] at ho
      rw [Option.map_eq_none_iff.mp ho.symm]
    | some fl =>
      rw [hm] at ho
      obtain ⟨fl', hl, same⟩ := Option.map_eq_some_iff.mp ho.symm
      simp only [hl, same]
  have inFlight : m.operation.isSome = l.operation.isSome := by
    simpa using congrArg Option.isSome ho
  exact ⟨by rw [hq, ha]; exact h.nodup, by rw [hq, inFlight]; exact h.behind,
    fun f hf => (operates _).trans (h.queue f (hq ▸ hf)), fun f hf => (operates _).trans (h.aside f (ha ▸ hf))⟩

theorem ChannelState.Awaits.modRecord {c : ChannelState} (h : c.Awaits) {f : JunctionRecord → JunctionRecord}
    (hf : ∀ r, (f r).template = r.template) : ({ c with engine := c.engine.modRecord f } : ChannelState).Awaits := by
  obtain ⟨state, r, hr, ht⟩ := h
  exact ⟨state, f r, by simp [hr], (hf r).trans ht⟩

/-- Grants leave every fetch as it is. -/
theorem AgreesButGrants.fetchFits {s t : State} (h : AgreesButGrants s t) {ch : Channel} (hs : s.FetchFits ch) :
    t.FetchFits ch := by
  obtain ⟨f, ⟨n, rfl⟩, hf⟩ := h.2.2.2.2.2.2.2 ch
  have library := h.library
  refine hs.congr (by rw [library]) (by rw [library]) (by rw [hf]) (by rw [hf]; exact id) fun hw => ?_
  rw [hf]
  exact hw.modRecord fun _ => rfl

theorem AgreesButGrants.fetchesSound {s t : State} (h : AgreesButGrants s t) (hs : s.FetchesSound) : t.FetchesSound :=
  t.fetchesSound_iff.mpr ⟨by rw [h.library]; exact (hs.but .a).1, fun ch => h.fetchFits (hs.fits ch)⟩

theorem AgreesButGrants.fetchesSoundBut {s t : State} (h : AgreesButGrants s t) {ch : Channel}
    (hs : s.FetchesSoundBut ch) : t.FetchesSoundBut ch :=
  ⟨by rw [h.library]; exact hs.1, fun c hc => h.fetchFits (hs.2 c hc)⟩

section
variable {s : State} {ch : Channel} {f : ChannelState → ChannelState}

theorem State.FetchesSoundBut.modChan (h : s.FetchesSoundBut ch) : (s.modChan ch f).FetchesSoundBut ch :=
  ⟨h.1, fun c hc => (h.2 c hc).congr rfl rfl (by rw [State.chan_modChan_ne _ hc])
    (by rw [State.chan_modChan_ne _ hc]; exact id) (by rw [State.chan_modChan_ne _ hc]; exact id)⟩

/-- A change of a channel that keeps its fetch state, stays out of IDLE and keeps waiting for its template. -/
theorem State.FetchesSound.modChan (h : s.FetchesSound) (hf : (f (s.chan ch)).fetch = (s.chan ch).fetch)
    (hi : (f (s.chan ch)).engine.state = .idle → (s.chan ch).engine.state = .idle)
    (hw : (s.chan ch).Awaits → (f (s.chan ch)).Awaits) : (s.modChan ch f).FetchesSound :=
  (h.but ch).modChan.add ((h.fits ch).congr rfl rfl (by rw [State.chan_modChan_same, hf])
    (by rw [State.chan_modChan_same]; exact hi) (by rw [State.chan_modChan_same]; exact hw))

theorem State.FetchesSound.modChan_same (h : s.FetchesSound) (hf : (f (s.chan ch)).fetch = (s.chan ch).fetch)
    (he : (f (s.chan ch)).engine = (s.chan ch).engine) : (s.modChan ch f).FetchesSound :=
  h.modChan hf (by rw [he]; exact id) (by unfold ChannelState.Awaits; rw [he]; exact id)

/-- A channel whose fetch is not in the library may change its engine as it likes, but to IDLE. -/
theorem State.FetchesSound.modChan_of_out (h : s.FetchesSound)
    (hout : (s.chan ch).fetch ≠ .queued ∧ (s.chan ch).fetch ≠ .setAside)
    (hf : (f (s.chan ch)).fetch = (s.chan ch).fetch)
    (hi : (f (s.chan ch)).engine.state = .idle → (s.chan ch).fetch = .none) : (s.modChan ch f).FetchesSound := by
  have fits := h.fits ch
  refine (h.but ch).modChan.add ⟨?_, ?_, ?_, ?_⟩ <;> rw [State.chan_modChan_same, hf]
  · exact fits.queued
  · exact fits.setAside
  · exact hi
  · exact fun e => absurd e (not_or.mpr hout)

theorem State.FetchFits.out_of_not_armed (h : s.FetchFits ch) (ha : (s.chan ch).engine.state ≠ .armed) :
    (s.chan ch).fetch ≠ .queued ∧ (s.chan ch).fetch ≠ .setAside :=
  ⟨fun e => ha (h.awaits (.inl e)).1, fun e => ha (h.awaits (.inr e)).1⟩

/-! ### Withdrawal, arrival and service -/

theorem mem_channels_filter {c : Channel} (hc : c ≠ ch) (l : List Fetch) :
    c ∈ (l.filter (·.channel ≠ ch)).map Fetch.channel ↔ c ∈ l.map Fetch.channel := by
  simp only [List.mem_map, List.mem_filter, decide_eq_true_eq]
  exact ⟨fun ⟨f, ⟨hf, _⟩, e⟩ => ⟨f, hf, e⟩, fun ⟨f, hf, e⟩ => ⟨f, ⟨hf, e ▸ hc⟩, e⟩⟩

/-- A channel's fetch withdrawn leaves the fetches sound, whatever that channel held (R116). -/
theorem withdrawFetch_fetches_sound (h : s.FetchesSoundBut ch) : (withdrawFetch ch s).FetchesSound := by
  obtain ⟨fit, others⟩ := h
  have chans (c : Channel) (hc : c ≠ ch) : (withdrawFetch ch s).chan c = s.chan c :=
    State.setFetch_chan_ne { s with library := _ } hc .none
  have gone (l : List Fetch) : ch ∉ (l.filter (·.channel ≠ ch)).map Fetch.channel := fun hm => by
    obtain ⟨f, hf, e⟩ := List.mem_map.mp hm
    have := (List.mem_filter.mp hf).2
    simp [e] at this
  have fetch : ((withdrawFetch ch s).chan ch).fetch = .none :=
    State.setFetch_chan_fetch { s with library := _ } ch .none
  refine State.FetchesSoundBut.add (ch := ch) ⟨⟨?_, fun hq => fit.behind fun e => hq ?_, ?_, ?_⟩, fun c hc => ?_⟩ ?_
  · have : (s.library.fetchQueue.filter (·.channel ≠ ch) ++ s.library.setAside.filter (·.channel ≠ ch)).Sublist
        (s.library.fetchQueue ++ s.library.setAside) := List.filter_sublist.append List.filter_sublist
    exact fit.nodup.sublist (this.map _)
  · exact (congrArg (List.filter _) e).trans rfl
  · exact fun f hf => fit.queue f (List.mem_filter.mp hf).1
  · exact fun f hf => fit.aside f (List.mem_filter.mp hf).1
  · have c' := chans c hc
    obtain ⟨queued, setAside, idle, awaits⟩ := others c hc
    exact ⟨by rw [c', ← queued]; exact mem_channels_filter hc _, by rw [c', ← setAside]; exact mem_channels_filter hc _,
      by rw [c']; exact idle, by rw [c']; exact awaits⟩
  · exact ⟨by rw [fetch]; exact ⟨fun hm => absurd hm (gone _), nofun⟩,
      by rw [fetch]; exact ⟨fun hm => absurd hm (gone _), nofun⟩, fun _ => fetch, by rw [fetch]; exact fun e => by simp at e⟩

/-- A fetch served whose channel has none in the library, out of IDLE (R114). -/
theorem serveFetch_fetches_sound {x : Fetch} (h : s.FetchesSoundBut x.channel)
    (hq : x.channel ∉ s.library.fetchQueue.map Fetch.channel) (ha : x.channel ∉ s.library.setAside.map Fetch.channel)
    (hi : (s.chan x.channel).engine.state ≠ .idle) : (serveFetch x s).FetchesSound := by
  unfold serveFetch
  dsimp only
  refine h.modChan.add ⟨?_, ?_, ?_, ?_⟩ <;> rw [State.chan_modChan_same]
  · exact ⟨fun hm => absurd hm hq, nofun⟩
  · exact ⟨fun hm => absurd hm ha, nofun⟩
  · exact fun e => absurd e hi
  · exact fun e => by simp at e

/-- A fetch added to the queue or to the set-aside list of a channel that has none (R113). -/
theorem fetchArrival_fetches_sound (h : s.FetchesSound) (hn : (s.chan ch).fetch = .none) (hw : (s.chan ch).Awaits)
    (slot : Nat) : (fetchArrival ch slot s).FetchesSound := by
  obtain ⟨fit, others⟩ := h.but ch
  have notQueued : ch ∉ s.library.fetchQueue.map Fetch.channel := fun hm => by
    have := (h.fits ch).queued.mp hm
    rw [hn] at this
    cases this
  have notAside : ch ∉ s.library.setAside.map Fetch.channel := fun hm => by
    have := (h.fits ch).setAside.mp hm
    rw [hn] at this
    cases this
  have lone : ∀ {l : List Fetch}, (l.map Fetch.channel).Nodup → ch ∉ l.map Fetch.channel →
      ((l ++ [({ channel := ch, slot := slot } : Fetch)]).map Fetch.channel).Nodup := fun hl hm => by
    rw [List.map_append]
    exact List.nodup_append.mpr ⟨hl, by simp, fun a ha b hb => by
      rw [List.map_cons, List.map_nil, List.mem_singleton] at hb
      exact fun e => hm ((show a = ch from e.trans hb) ▸ ha)⟩
  have fresh : ch ∉ (s.library.fetchQueue ++ s.library.setAside).map Fetch.channel := by
    rw [List.map_append, List.mem_append]
    exact not_or.mpr ⟨notQueued, notAside⟩
  have added (l : List Fetch) (c : Channel) (hc : c ≠ ch) :
      c ∈ (l ++ [({ channel := ch, slot := slot } : Fetch)]).map Fetch.channel ↔ c ∈ l.map Fetch.channel := by
    simp [hc]
  unfold fetchArrival
  dsimp only
  split
  · rename_i on
    refine State.FetchesSoundBut.add (ch := ch) ⟨⟨?_, fit.behind, fit.queue, fun f hf => ?_⟩, fun c hc => ?_⟩ ?_
    · have := lone fit.nodup fresh
      rwa [List.append_assoc] at this
    · rcases List.mem_append.mp hf with hf | hf
      · exact fit.aside f hf
      · rw [List.mem_singleton.mp hf]
        exact on
    · have c' := State.setFetch_chan_ne { s with library := { s.library with
        setAside := s.library.setAside ++ [{ channel := ch, slot := slot }] } } hc .setAside
      obtain ⟨queued, setAside, idle, awaits⟩ := others c hc
      exact ⟨by rw [c']; exact queued, by rw [c']; exact (added _ c hc).trans setAside, by rw [c']; exact idle,
        by rw [c']; exact awaits⟩
    · refine ⟨?_, ?_, ?_, ?_⟩ <;> simp only [State.setFetch, State.chan_modChan_same]
      · exact ⟨fun hm => absurd hm notQueued, nofun⟩
      · exact ⟨fun _ => trivial, fun _ => by simp⟩
      · exact fun e => absurd (hw.1.symm.trans e) nofun
      · exact fun _ => hw
  · rename_i off
    split
    · exact serveFetch_fetches_sound (x := { channel := ch, slot := slot }) ⟨fit, others⟩ notQueued notAside
        (by rw [hw.1]; exact nofun)
    · rename_i busy
      have inFlight : s.library.operation.isSome := by
        cases ho : s.library.operation with
        | some fl => rfl
        | none =>
          have : s.library.fetchQueue ≠ [] := fun hq => busy ⟨by rw [ho]; rfl, hq⟩
          exact absurd (fit.behind this) (by rw [ho]; exact nofun)
      refine State.FetchesSoundBut.add (ch := ch) ⟨⟨?_, fun _ => inFlight, fun f hf => ?_, fit.aside⟩, fun c hc => ?_⟩ ?_
      · have swapped : ((s.library.fetchQueue ++ s.library.setAside ++ [({ channel := ch, slot := slot } : Fetch)]).map
            Fetch.channel).Perm ((s.library.fetchQueue ++ [({ channel := ch, slot := slot } : Fetch)] ++
              s.library.setAside).map Fetch.channel) := by
          refine List.Perm.map _ ?_
          rw [List.append_assoc, List.append_assoc]
          exact List.perm_append_comm.append_left _
        exact swapped.nodup (lone fit.nodup fresh)
      · rcases List.mem_append.mp hf with hf | hf
        · exact fit.queue f hf
        · rw [List.mem_singleton.mp hf]
          exact eq_false_of_ne_true off
      · have c' := State.setFetch_chan_ne { s with library := { s.library with
          fetchQueue := s.library.fetchQueue ++ [{ channel := ch, slot := slot }] } } hc .queued
        obtain ⟨queued, setAside, idle, awaits⟩ := others c hc
        exact ⟨by rw [c']; exact (added _ c hc).trans queued, by rw [c']; exact setAside, by rw [c']; exact idle,
          by rw [c']; exact awaits⟩
      · refine ⟨?_, ?_, ?_, ?_⟩ <;> simp only [State.setFetch, State.chan_modChan_same]
        · exact ⟨fun _ => trivial, fun _ => by simp⟩
        · exact ⟨fun hm => absurd hm notAside, nofun⟩
        · exact fun e => absurd (hw.1.symm.trans e) nofun
        · exact fun _ => hw

end

end Sys2Proof.Machine
end

section
/-!
PROOFS. The fetches through every step (R104, R113 to R116).
-/

namespace Sys2Proof.Machine

section
variable {s : State} {ch : Channel}

/-! ### Arming, junction ends and the start event -/

theorem armTest_fetches_sound (ch : Channel) (h : s.FetchesSound) : (armTest ch s).FetchesSound := by
  unfold armTest
  dsimp only
  split
  · rename_i e rest hi _
    split
    · unfold armEntry
      dsimp only
      have none : (s.chan ch).fetch = .none := (h.fits ch).idle hi
      refine (agreesButGrants_scalerRequest ch _ _ _).fetchesSound (fetchArrival_fetches_sound ?_ ?_ ?_ e.slot)
      · exact h.modChan_of_out (by rw [none]; exact ⟨nofun, nofun⟩) rfl fun _ => none
      · rw [State.chan_modChan_same]
        exact none
      · rw [State.chan_modChan_same]
        exact ⟨rfl, _, rfl, rfl⟩
    · exact h
  · exact h

theorem templateStep_of_awaited {r : JunctionRecord} (hr : (s.chan ch).engine.record = some r)
    (ht : r.template = none) :
    templateStep ch s = (withdrawFetch ch s).modChan ch fun c => (c.fallBack r.slot).takeLook := by
  obtain ⟨⟩ := r
  cases ht
  unfold templateStep
  simp only [hr]

theorem templateStep_of_known (h : ∀ r, (s.chan ch).engine.record = some r → r.template ≠ none) :
    templateStep ch s = s.modChan ch (·.takeLook) := by
  unfold templateStep
  split
  · exact absurd rfl (h _ ‹_›)
  · rfl

theorem releaseClaim_fetches_soundBut (h : s.FetchesSoundBut ch) : (releaseClaim ch s).FetchesSoundBut ch :=
  (agreesButGrants_releaseClaim ch s).fetchesSoundBut h

/-- A junction end withdraws the fetch of its channel (R45, R116). -/
theorem endWith_fetches_sound (o : JunctionOutcome) {lists : ChannelState → ChannelState}
    (hl : ∀ c, (lists c).fetch = c.fetch) (h : s.FetchesSound) : (endWith ch o lists s).FetchesSound := by
  unfold endWith
  split
  · exact h
  · dsimp only
    have withdrawn := withdrawFetch_fetches_sound (releaseClaim_fetches_soundBut (h.but ch))
    have none : ((withdrawFetch ch (releaseClaim ch s)).chan ch).fetch = .none :=
      State.setFetch_chan_fetch { releaseClaim ch s with library := _ } ch .none
    exact armTest_fetches_sound ch (withdrawn.modChan_of_out (by rw [none]; exact ⟨nofun, nofun⟩) (hl _) fun _ => none)

theorem finishEnd_fetches_sound {fe : FrameEnd} (h : s.FetchesSound) : (finishEnd ch fe s).FetchesSound := by
  cases fe with
  | goes => exact h
  | cut o => exact endWith_fetches_sound o (lists := ChannelState.spendBank) (fun _ => rfl) h
  | ends o => exact endWith_fetches_sound o (lists := ChannelState.spendBank) (fun _ => rfl) h

/-- The template step leaves no fetch of its channel in the library (R27). -/
theorem templateStep_fetches_sound (h : s.FetchesSound) (ha : (s.chan ch).engine.state = .armed) :
    (templateStep ch s).FetchesSound ∧
      ((templateStep ch s).chan ch).fetch ≠ .queued ∧ ((templateStep ch s).chan ch).fetch ≠ .setAside := by
  by_cases awaited : ∃ r, (s.chan ch).engine.record = some r ∧ r.template = none
  · obtain ⟨r, hr, ht⟩ := awaited
    rw [templateStep_of_awaited hr ht]
    have none : ((withdrawFetch ch s).chan ch).fetch = .none :=
      State.setFetch_chan_fetch { s with library := _ } ch .none
    refine ⟨(withdrawFetch_fetches_sound (h.but ch)).modChan_of_out (by rw [none]; exact ⟨nofun, nofun⟩) rfl
      fun _ => none, ?_⟩
    rw [State.chan_modChan_same]
    exact none ▸ ⟨nofun, nofun⟩
  · have out : ¬ ((s.chan ch).fetch = .queued ∨ (s.chan ch).fetch = .setAside) := fun e =>
      awaited ((h.fits ch).awaits e).2
    rw [templateStep_of_known fun r hr ht => awaited ⟨r, hr, ht⟩]
    refine ⟨h.modChan_same rfl rfl, ?_⟩
    rw [State.chan_modChan_same]
    exact not_or.mp out

theorem startEvent_fetches_sound (h : s.FetchesSound) (ha : (s.chan ch).engine.state = .armed) :
    (startEvent ch s).1.FetchesSound := by
  obtain ⟨stepped, out⟩ := templateStep_fetches_sound h ha
  have grants := agreesButGrants_claimed ch s
  have claimed := grants.fetchesSound stepped
  have fetch : ((s.claimed ch).chan ch).fetch = ((templateStep ch s).chan ch).fetch := by
    obtain ⟨f, -, hf⟩ := grants.2.2.2.2.2.2.2 ch
    rw [hf]
  rcases startEvent_cases ch s with ⟨-, he⟩ | ⟨r, hr, ⟨-, he⟩ | ⟨-, he⟩⟩ <;> rw [he]
  · exact claimed
  · exact claimed.modChan_same rfl rfl
  · refine claimed.modChan_of_out (fetch ▸ out) (by simp) fun e => ?_
    rcases Engine.counterStep_state ((((s.claimed ch).chan ch).assignScalers (s.startGrant ch)).bankStep r.firstBank).engine
      ((((s.claimed ch).chan ch).assignScalers (s.startGrant ch)).bankStep r.firstBank).promo.play.bank.isNone with hst | hst <;>
      exact absurd (hst.symm.trans e) nofun

/-! ### The junction's work -/

/-- A running engine has no fetch in the library; it may do anything but return to IDLE. -/
theorem State.FetchesSound.running (h : s.FetchesSound) {f : ChannelState → ChannelState}
    (hi : (s.chan ch).engine.state ≠ .armed) (hf : (f (s.chan ch)).fetch = (s.chan ch).fetch)
    (hs : (f (s.chan ch)).engine.state = .idle → (s.chan ch).engine.state = .idle) : (s.modChan ch f).FetchesSound :=
  h.modChan_of_out ((h.fits ch).out_of_not_armed hi) hf fun e => (h.fits ch).idle (hs e)

theorem Engine.work_idle {e : Engine} {items emptyList : Bool} (ha : e.state ≠ .armed)
    (h : (e.work items emptyList).engine.state = .idle) : e.state = .idle := by
  by_contra hi
  exact (Engine.work_running hi ha).1 h

theorem junctionFrame_fetches_sound (v : PromoValidity) (h : s.FetchesSound) :
    (junctionFrame ch v s).1.FetchesSound := by
  by_cases hi : (s.chan ch).engine.state = .idle
  · unfold junctionFrame
    rw [hi]
    exact h
  by_cases ha : (s.chan ch).engine.state = .armed
  · have started := startEvent_fetches_sound h ha
    unfold junctionFrame
    rw [ha]
    dsimp only
    split
    · rename_i due
      split
      · rename_i s1 he
        have goes := startEvent_goes he (startDue_record due)
        rw [he] at started
        have running : (s1.chan ch).engine.state ≠ .armed := fun e => by
          rcases goes with hst | hst <;> cases hst.symm.trans e
        exact State.FetchesSound.running started running (by simp) (by simp)
      · rename_i he
        rw [he] at started
        exact finishEnd_fetches_sound started
    · exact h
  · rw [junctionFrame_of_running v hi ha]
    refine finishEnd_fetches_sound (State.FetchesSound.running (f := fun c => (c.runOn v).1) h ha (by simp) fun e => ?_)
    obtain ⟨items, hr⟩ := (s.chan ch).turn_result v
    rw [ChannelState.runOn_engine_state, hr] at e
    exact Engine.work_idle ha e

theorem engineWork_fetches_sound (h : s.FetchesSound) : (engineWork ch s).FetchesSound := by
  unfold engineWork
  dsimp only
  split
  · rename_i ha
    split
    · exact finishEnd_fetches_sound (startEvent_fetches_sound h ha)
    · exact h
  · rename_i ha
    exact finishEnd_fetches_sound (h.running ha rfl fun e => Engine.work_idle ha e)

/-! ### The notices of a SET_TIME -/

theorem missUnless_fetches_sound (o : JunctionOutcome) (keep : Entry → Bool) (h : s.FetchesSound) :
    (missUnless ch o keep s).FetchesSound := by
  have missed (l : List Entry) (u : State) (hu : u.FetchesSound) : (l.foldl (missOne ch o) u).FetchesSound := by
    induction l generalizing u with
    | nil => exact hu
    | cons e l ih => exact ih _ (hu.modChan_same rfl rfl)
  unfold missUnless
  dsimp only
  exact missed _ _ (h.modChan_same rfl rfl)

theorem jumpChannel_fetches_sound (h : s.FetchesSound) : (jumpChannel s ch).FetchesSound := by
  have missed := missUnless_fetches_sound (ch := ch) .missedTimeJump
    (fun e => ahead e.start s.ref.sfc || decide (e.start = s.ref.sfc)) h
  have flagged : ((missUnless ch .missedTimeJump (fun e => ahead e.start s.ref.sfc || decide (e.start = s.ref.sfc))
      s).raise ch .timeJump).FetchesSound := missed.modChan_same rfl rfl
  have jumped : (jumpSchedule ch s).FetchesSound := flagged.modChan_same rfl rfl
  unfold jumpChannel jumpEngine
  refine (armTest_fetches_sound ch jumped).modChan ?_ ?_ fun hw => ?_
  · split <;> rfl
  · split <;> exact id
  · split
    · exact hw.modRecord fun _ => rfl
    · exact hw

theorem jumps_fetches_sound (l : List Channel) {s : State} (h : s.FetchesSound) :
    (l.foldl jumpChannel s).FetchesSound := by
  induction l generalizing s with
  | nil => exact h
  | cons ch l ih => exact ih (jumpChannel_fetches_sound h)

/-! ### The library's work -/

/-- What a run of served set-aside fetches works on: engines out of IDLE for those to come, and every channel set aside
among them (R115). -/
structure State.Serving (l : List Fetch) (s : State) : Prop where
  busy : ∀ f ∈ l, (s.chan f.channel).engine.state ≠ .idle
  queued : ∀ ch, (s.chan ch).fetch ≠ .queued
  aside : ∀ ch, (s.chan ch).fetch = .setAside → ch ∈ l.map Fetch.channel
  idle : ∀ ch, (s.chan ch).engine.state = .idle → (s.chan ch).fetch = .none

theorem serveFetch_chan_ne (f : Fetch) (s : State) {c : Channel} (hc : c ≠ f.channel) :
    (serveFetch f s).chan c = s.chan c := by
  unfold serveFetch
  exact s.chan_modChan_ne hc _

theorem serveFetch_chan_fetch (f : Fetch) (s : State) : ((serveFetch f s).chan f.channel).fetch = .served := by
  unfold serveFetch
  dsimp only
  rw [State.chan_modChan_same]

theorem serveFetch_engineState (f : Fetch) (s : State) (c : Channel) :
    ((serveFetch f s).chan c).engine.state = (s.chan c).engine.state := by
  by_cases hc : c = f.channel
  · subst hc
    unfold serveFetch
    dsimp only
    rw [State.chan_modChan_same]
    rfl
  · rw [serveFetch_chan_ne f s hc]

theorem State.Serving.serveFetch {f : Fetch} {l : List Fetch} {s : State} (h : s.Serving (f :: l)) :
    (serveFetch f s).Serving l where
  busy g hg := by
    rw [serveFetch_engineState]
    exact h.busy g (List.mem_cons_of_mem f hg)
  queued c := by
    by_cases hc : c = f.channel
    · rw [hc, serveFetch_chan_fetch]
      exact nofun
    · rw [serveFetch_chan_ne f s hc]
      exact h.queued c
  aside c hc := by
    by_cases he : c = f.channel
    · rw [he, serveFetch_chan_fetch] at hc
      cases hc
    · rw [serveFetch_chan_ne f s he] at hc
      exact (List.mem_cons.mp (h.aside c hc)).resolve_left he
  idle c hc := by
    rw [serveFetch_engineState] at hc
    have other : c ≠ f.channel := fun e => h.busy f List.mem_cons_self (e ▸ hc)
    rw [serveFetch_chan_ne f s other]
    exact h.idle c hc

theorem State.Serving.serveAll {l : List Fetch} {s : State} (h : s.Serving l) : (serveAll l s).Serving [] := by
  unfold Machine.serveAll
  induction l generalizing s with
  | nil => exact h
  | cons f l ih => exact ih h.serveFetch

/-- With the library's lists empty and no operation in flight, fetches are sound once every one is served. -/
theorem State.Serving.fetchesSound {s : State} (h : s.Serving []) (hq : s.library.fetchQueue = [])
    (ha : s.library.setAside = []) : s.FetchesSound := by
  have aside (ch : Channel) : (s.chan ch).fetch ≠ .setAside := fun e => List.not_mem_nil (h.aside ch e)
  refine s.fetchesSound_iff.mpr ⟨⟨?_, fun e => absurd hq e, ?_, ?_⟩, fun ch => ⟨?_, ?_, h.idle ch, fun e => ?_⟩⟩
  · rw [hq, ha]
    exact List.nodup_nil
  · rw [hq]
    exact fun f hf => absurd hf List.not_mem_nil
  · rw [ha]
    exact fun f hf => absurd hf List.not_mem_nil
  · rw [hq]
    exact ⟨fun hm => absurd hm List.not_mem_nil, fun e => absurd e (h.queued ch)⟩
  · rw [ha]
    exact ⟨fun hm => absurd hm List.not_mem_nil, fun e => absurd e (aside ch)⟩
  · exact (not_or.mpr ⟨h.queued ch, aside ch⟩ e).elim

/-- A library whose queue is empty has its set-aside fetches left to serve. -/
theorem State.FetchesSound.serving (h : s.FetchesSound) (hq : s.library.fetchQueue = []) :
    s.Serving s.library.setAside where
  busy f hf e := by
    have aside := (h.fits f.channel).setAside.mp (List.mem_map_of_mem hf)
    have idle := (h.fits f.channel).idle e
    rw [aside] at idle
    cases idle
  queued ch e := by
    have := (h.fits ch).queued.mpr e
    rw [hq] at this
    exact List.not_mem_nil this
  aside ch e := (h.fits ch).setAside.mpr e
  idle ch e := (h.fits ch).idle e

/-- The head of the queue taken out of it: the fetches of every other channel stand. -/
theorem State.FetchesSound.tail (h : s.FetchesSound) {f : Fetch} {rest : List Fetch}
    (hq : s.library.fetchQueue = f :: rest) (b : Bool) :
    ({ s with library := { s.library with fetchQueue := rest, suspended := b } } : State).FetchesSoundBut f.channel ∧
      f.channel ∉ rest.map Fetch.channel ∧ f.channel ∉ s.library.setAside.map Fetch.channel := by
  obtain ⟨⟨nodup, behind, queue, aside⟩, chans⟩ := s.fetchesSound_iff.mp h
  rw [hq] at nodup queue behind
  have others := List.nodup_cons.mp nodup
  have both : ¬ (f.channel ∈ rest.map Fetch.channel ∨ f.channel ∈ s.library.setAside.map Fetch.channel) := fun hm =>
    others.1 (List.map_append (f := Fetch.channel) ▸ List.mem_append.mpr hm)
  refine ⟨⟨⟨others.2, fun _ => behind (List.cons_ne_nil _ _), fun g hg => queue g (List.mem_cons_of_mem f hg), aside⟩,
    fun c hc => ⟨?_, (chans c).setAside, (chans c).idle, (chans c).awaits⟩⟩, ?_, ?_⟩
  · refine Iff.trans ?_ (chans c).queued
    rw [hq]
    exact ⟨fun hm => List.mem_cons_of_mem _ hm, fun hm => (List.mem_cons.mp hm).resolve_left hc⟩
  · exact fun hm => both (.inl hm)
  · exact fun hm => both (.inr hm)

/-- The change of a completed operation made, with the set-aside list emptied and its fetches still to serve. -/
def State.applied (s : State) (op : Operation) : State :=
  { applyOperation op s with library := { (applyOperation op s).library with setAside := [] } }

theorem completeOperation_eq_serveAll (op : Operation) (s : State) :
    completeOperation op s = serveAll s.library.setAside (s.applied op) := by cases op <;> rfl

theorem State.applied_chan (s : State) (op : Operation) (ch : Channel) : (s.applied op).chan ch = s.chan ch := by
  cases op <;> rfl

theorem completeOperation_fetches_sound (h : s.FetchesSound) (hq : s.library.fetchQueue = []) (op : Operation) :
    (completeOperation op s).FetchesSound := by
  have serving : (s.applied op).Serving s.library.setAside := by
    obtain ⟨busy, queued, aside, idle⟩ := h.serving hq
    refine ⟨?_, ?_, ?_, ?_⟩ <;> simp only [s.applied_chan op]
    · exact busy
    · exact queued
    · exact aside
    · exact idle
  rw [completeOperation_eq_serveAll]
  refine serving.serveAll.fetchesSound ?_ ?_ <;> rw [serveAll_library]
  · cases op <;> exact hq
  · rfl

theorem libraryWork_fetches_sound (h : s.FetchesSound) : (libraryWork s).FetchesSound := by
  unfold libraryWork
  split
  · rename_i f rest hq
    obtain ⟨rested, out, aside⟩ := h.tail hq s.library.operation.isSome
    refine serveFetch_fetches_sound rested out aside fun e => ?_
    have queued := (h.fits f.channel).queued.mp (by rw [hq]; exact List.mem_cons_self)
    have idle := (h.fits f.channel).idle e
    rw [queued] at idle
    cases idle
  · rename_i hq
    dsimp only
    have resumed : ({ s with library := { s.library with suspended := false } } : State).FetchesSound := h
    split
    · exact resumed
    · rename_i fl hfl
      split
      · exact completeOperation_fetches_sound resumed hq fl.op
      · refine State.fetchesSound_iff _ |>.mpr ⟨(h.but .a).1.congr rfl rfl ?_, fun ch =>
          (h.fits ch).congr rfl rfl rfl id id⟩
        rw [hfl]
        rfl

/-- An operation starts where none is in flight, and so where no fetch is in the library. -/
theorem startOperation_fetches_sound (h : s.FetchesSound) (hn : s.library.operation = none) (op : Operation) :
    (startOperation op s).FetchesSound := by
  obtain ⟨fit, chans⟩ := s.fetchesSound_iff.mp h
  have queue : s.library.fetchQueue = [] := by
    by_contra hq
    have := fit.behind hq
    rw [hn] at this
    cases this
  have aside : s.library.setAside = [] := List.eq_nil_iff_forall_not_mem.mpr fun f hf => by
    have := fit.aside f hf
    unfold Library.operatesOn at this
    rw [hn] at this
    cases this
  have serving := h.serving queue
  rw [aside] at serving
  have chan (c : Channel) : (startOperation op s).chan c = s.chan c := by rw [startOperation_eq]; rfl
  have lists : (startOperation op s).library.fetchQueue = s.library.fetchQueue ∧
      (startOperation op s).library.setAside = s.library.setAside := by
    cases op <;> exact ⟨rfl, rfl⟩
  refine State.Serving.fetchesSound ⟨?_, ?_, ?_, ?_⟩ (lists.1.trans queue) (lists.2.trans aside)
  · exact fun f hf => absurd hf List.not_mem_nil
  all_goals
    simp only [chan]
  · exact serving.queued
  · exact serving.aside
  · exact serving.idle

/-! ### Every change -/

theorem ChannelState.countLoad_fetch (c : ChannelState) : c.countLoad.fetch = c.fetch := by
  unfold countLoad
  split
  · rfl
  · split <;> rfl

theorem ChannelState.appendItems_fetch (c : ChannelState) (x : LoadContext) (its : List Item) :
    (c.appendItems x its).fetch = c.fetch := by
  unfold appendItems
  dsimp only
  split <;> rfl

theorem Engine.takeCause_awaits {c : ChannelState} (h : c.Awaits) (x : EndCause) :
    ({ c with engine := c.engine.takeCause x } : ChannelState).Awaits := by
  obtain ⟨state, r, hr, ht⟩ := h
  exact ⟨state, { r with endCause := some x }, by simp [Engine.takeCause, hr], ht⟩

/-- No fetch anywhere, and none in the library. -/
theorem State.fetchesSound_of_none {s : State} (hq : s.library.fetchQueue = []) (ha : s.library.setAside = [])
    (hf : ∀ ch, (s.chan ch).fetch = .none) : s.FetchesSound :=
  State.Serving.fetchesSound
    { busy := fun _ hm => absurd hm List.not_mem_nil
      queued := fun ch => by rw [hf]; exact nofun
      aside := fun ch e => by cases (hf ch).symm.trans e
      idle := fun ch _ => hf ch } hq ha

theorem Change.fetches_sound {t : State} (h : Change s t) (hs : s.FetchesSound) : t.FetchesSound := by
  cases h with
  | raise ch | record ch | append ch | clearMask ch | readback ch | disarm ch | skip ch | addressing ch | armReset ch
  | countArm ch | countPacket ch | newFrame ch | output ch | insert ch | keepEntries ch | tolerance ch | openLoad ch
  | dropLoad ch | compose ch | status ch => exact hs.modChan_same (ch := ch) rfl rfl
  | appendItems ch x its =>
    exact hs.modChan_same (ChannelState.appendItems_fetch _ x its) (ChannelState.appendItems_engine _ x its)
  | countLoad ch => exact hs.modChan_same (ChannelState.countLoad_fetch _) (ChannelState.countLoad_engine _)
  | takeList ch v hst =>
    refine hs.running (ch := ch) (fun e => ?_) (by simp) (by simp)
    rw [e] at hst
    cases hst
  | startOperation op hn => exact startOperation_fetches_sound hs hn op
  | volatileSlot | storeFail | protection | management | reference | judge => exact hs
  | libraryWork => exact libraryWork_fetches_sound hs
  | openFrame =>
    refine (State.fetchesSound_iff _).mpr ⟨(hs.but .a).1, fun ch => (hs.fits ch).congr rfl rfl ?_ ?_ ?_⟩ <;>
      unfold Machine.openFrame <;> rw [State.chan_mapChans]
    · rfl
    · exact id
    · exact id
  | setTime v =>
    rw [setTimeBody_fst]
    exact (agreesButGrants_grantTest _).fetchesSound (jumps_fetches_sound _ (s := s.atTime v) hs)
  | grantTest => exact (agreesButGrants_grantTest s).fetchesSound hs
  | armTest ch => exact armTest_fetches_sound ch hs
  | markEnd ch hst =>
    refine hs.running (ch := ch) (fun e => ?_) rfl id
    rw [e] at hst
    rcases hst with hst | hst | hst <;> cases hst
  | reloadWatch ch w hst hw => exact hs.running (ch := ch) (by rw [hst]; exact nofun) rfl id
  | abort ch hst =>
    have aborting : (s.modChan ch (·.aborting)).FetchesSound :=
      hs.modChan rfl id fun hw => Engine.takeCause_awaits hw .abort
    exact endWith_fetches_sound .aborted (lists := ChannelState.emptyBanks) (fun _ => rfl) aborting
  | channelReset ch =>
    exact withdrawFetch_fetches_sound (releaseClaim_fetches_soundBut ((hs.but ch).modChan))
  | partReset =>
    refine State.fetchesSound_of_none rfl rfl fun ch => ?_
    unfold Machine.partReset
    rw [State.chan_mapChans]
    rfl
  | powerOn a b => exact State.fetchesSound_of_none rfl rfl fun ch => by cases ch <;> rfl
  | junctionFrame ch v => exact junctionFrame_fetches_sound v hs
  | engineWork ch => exact engineWork_fetches_sound hs

end

/-- Settles O11: every change keeps the operation in flight in agreement with the slots, and each fetch with its state. -/
theorem stepKeepsTheLibrary : Obligations.StepKeepsTheLibrary := fun _ _ h =>
  ⟨step_keeps (p := fun u => u.library.OperationSound) (fun _ _ hc hs => hc.operation_sound hs) (fun _ _ hs => hs) h,
    step_keeps (p := State.FetchesSound) (fun _ _ hc hs => hc.fetches_sound hs) (fun _ _ hs => hs) h⟩

end Sys2Proof.Machine
end

section
/-!
PROOFS. The scaler grants stay within the six, and a request that waits does not fit (R88 to R96). Two waiting channels
hold nothing, which leaves scalers enough for either, so that a grant test that stops at a request that does not fit has
served every other.
-/

namespace Sys2Proof.Machine

/-! ### Requests that wait -/

theorem Request.Sound.granted_le {r : Request} (h : r.Sound) : r.granted ≤ 2 := by
  unfold Request.Sound at h
  split at h <;> omega

theorem Request.Sound.waiting {r : Request} (h : r.Sound) (hw : r.state = .waiting) :
    1 ≤ r.requested ∧ r.requested ≤ 2 ∧ r.granted = 0 := by
  unfold Request.Sound at h
  rwa [hw] at h

theorem Request.none_sound : Request.none.Sound := ⟨rfl, rfl⟩

/-- Two waiting requests leave scalers enough for any one (R88). -/
theorem Pool.Sound.two_le_free {p : Pool} (h : p.Sound) {x y : Channel} (hxy : x ≠ y) (hx : x ∈ p.queue)
    (hy : y ∈ p.queue) : 2 ≤ p.free := by
  obtain ⟨-, records, -, queue⟩ := h
  have bound (ch : Channel) := (records ch).granted_le
  have x0 := ((records x).waiting ((queue x).mp hx)).2.2
  have y0 := ((records y).waiting ((queue y).mp hy)).2.2
  have a := bound .a
  have b := bound .b
  have c := bound .c
  have d := bound .d
  simp only [PerChannel.get] at a b c d
  simp only [Pool.free, Pool.held, Config.poolSize]
  cases x <;> cases y <;> simp only [PerChannel.get] at x0 y0 <;> first | exact absurd rfl hxy | omega

/-- No request that waits fits the free scalers (R92). -/
def Pool.Settled (p : Pool) : Prop := ∀ ch ∈ p.queue, p.free < (p.records.get ch).requested

/-- The first request that does not fit is alone in the queue. -/
theorem Pool.Sound.queue_of_head {p : Pool} (h : p.Sound) {ch : Channel} {rest : List Channel}
    (hq : p.queue = ch :: rest) (hf : p.free < (p.records.get ch).requested) : rest = [] := by
  have head : ch ∈ p.queue := by rw [hq]; exact List.mem_cons_self
  have small := ((h.2.1 ch).waiting ((h.2.2.2 ch).mp head)).2.1
  refine List.eq_nil_iff_forall_not_mem.mpr fun y hy => ?_
  have nodup := h.2.2.1
  rw [hq] at nodup
  have other : ch ≠ y := fun e => (List.nodup_cons.mp nodup).1 (e ▸ hy)
  have := h.two_le_free other head (by rw [hq]; exact List.mem_cons_of_mem _ hy)
  omega

theorem Pool.Settled.length_le {p : Pool} (hs : p.Settled) (h : p.Sound) : p.queue.length ≤ 1 := by
  cases hq : p.queue with
  | nil => exact Nat.zero_le _
  | cons ch rest =>
    rw [h.queue_of_head hq (hs ch (by rw [hq]; exact List.mem_cons_self))]
    exact Nat.le_refl 1

/-! ### The grant test -/

theorem State.grantTo_sound {s : State} (h : s.pool.Sound) {ch : Channel} (hq : ch ∈ s.pool.queue)
    (hf : (s.pool.records.get ch).requested ≤ s.pool.free) :
    (s.grantTo ch (s.pool.records.get ch).requested).pool.Sound := by
  have waiting := (h.2.1 ch).waiting ((h.2.2.2 ch).mp hq)
  rw [State.grantTo_pool]
  refine h.resolve ?_ (by simp) ?_
  · simp only [Request.Sound, Nat.le_refl, and_true]
    exact waiting.2.1
  · simp only
    omega

theorem grantLoop_settles (n : Nat) {s : State} (h : s.pool.Sound) (hn : s.pool.queue.length ≤ n) :
    (grantLoop n s).pool.Settled := by
  induction n generalizing s with
  | zero =>
    intro ch hm
    rw [show (grantLoop 0 s).pool.queue = [] from List.length_eq_zero_iff.mp (Nat.le_zero.mp hn)] at hm
    exact absurd hm List.not_mem_nil
  | succ n ih =>
    simp only [grantLoop]
    split
    · rename_i hq
      intro ch hm
      rw [hq] at hm
      exact absurd hm List.not_mem_nil
    · rename_i ch rest hq
      have head : ch ∈ s.pool.queue := by rw [hq]; exact List.mem_cons_self
      split
      · rename_i fits
        refine ih (State.grantTo_sound h head fits) ?_
        have shorter : (s.pool.queue.filter (· ≠ ch)).length ≤ rest.length := by
          rw [hq, List.filter_cons_of_neg (by simp)]
          exact List.length_filter_le _ _
        rw [State.grantTo_pool]
        have := hq ▸ hn
        simp only [List.length_cons] at this
        exact shorter.trans (by omega)
      · rename_i short
        have alone := h.queue_of_head hq (Nat.lt_of_not_le short)
        intro c hm
        rw [hq, alone, List.mem_singleton] at hm
        exact hm ▸ Nat.lt_of_not_le short

/-- After a grant test no waiting request fits (R92). -/
theorem grantTest_settles {s : State} (h : s.pool.Sound) : (grantTest s).pool.Settled :=
  grantLoop_settles _ (s := { s with pool := { s.pool with queue := s.pool.ordered s.ref.sfc s.pool.queue } })
    (h.reordered s.ref.sfc) (Nat.le_refl _)

/-! ### Steps of the pool -/

/-- A NONE record for every IDLE engine, but for what one channel holds. -/
def State.ClaimsFit (s : State) (ch : Channel) : Prop :=
  (s.chan ch).engine.state = .idle → (s.pool.records.get ch).state = .none

/-- From a sound pool, a sound pool, settled where it was settled before. -/
def PoolStep (s t : State) : Prop := s.PoolSound → t.PoolSound ∧ (s.pool.Settled → t.pool.Settled)

namespace PoolStep

theorem refl (s : State) : PoolStep s s := fun h => ⟨h, id⟩

theorem trans {s t u : State} (h : PoolStep s t) (h' : PoolStep t u) : PoolStep s u := fun hs =>
  ⟨(h' (h hs).1).1, fun hq => (h' (h hs).1).2 ((h hs).2 hq)⟩

/-- The pool stands and no engine returns to IDLE. -/
theorem of_same {s t : State} (hp : t.pool = s.pool)
    (hi : ∀ ch, (t.chan ch).engine.state = .idle → (s.chan ch).engine.state = .idle) : PoolStep s t := fun hs => by
  obtain ⟨pool, claims⟩ := hs
  unfold State.PoolSound
  rw [hp]
  exact ⟨⟨pool, fun ch h => claims ch (hi ch h)⟩, id⟩

theorem of_channels {s t : State} (hp : t.pool = s.pool) (hc : t.channels = s.channels) : PoolStep s t :=
  of_same hp fun ch h => by unfold State.chan at h ⊢; rwa [← hc]

/-- Grants leave the engine states; they leave a sound pool settled where they settle it. -/
theorem of_grants {s t : State} (h : AgreesButGrants s t) (hp : s.PoolSound → t.pool.Sound ∧ t.pool.Settled)
    (hn : s.PoolSound → ∀ ch, (s.pool.records.get ch).state = .none → (t.pool.records.get ch).state = .none) :
    PoolStep s t := fun hs =>
  ⟨⟨(hp hs).1, fun ch e => hn hs ch (hs.2 ch (by rwa [h.engineState ch] at e))⟩, fun _ => (hp hs).2⟩

variable {s : State} {ch : Channel}

theorem modChan {f : ChannelState → ChannelState}
    (hf : (f (s.chan ch)).engine.state = .idle → (s.chan ch).engine.state = .idle) : PoolStep s (s.modChan ch f) :=
  of_same rfl fun c h => by
    by_cases hc : c = ch
    · subst hc
      rw [State.chan_modChan_same] at h
      exact hf h
    · rwa [State.chan_modChan_ne _ hc] at h

theorem modChan_same {f : ChannelState → ChannelState} (hf : (f (s.chan ch)).engine.state = (s.chan ch).engine.state) :
    PoolStep s (s.modChan ch f) := modChan (by rw [hf]; exact id)

theorem setFetch {s t : State} (hp : t.pool = s.pool) (hc : t.channels = s.channels) (f : FetchState) :
    PoolStep s (t.setFetch ch f) := (of_channels hp hc).trans (modChan_same rfl)

theorem serveFetch (f : Fetch) (s : State) : PoolStep s (serveFetch f s) :=
  of_same rfl fun c h => by rwa [serveFetch_engineState] at h

theorem serveAll (l : List Fetch) (s : State) : PoolStep s (serveAll l s) := by
  unfold Machine.serveAll
  induction l generalizing s with
  | nil => exact refl s
  | cons f l ih => exact (serveFetch f s).trans (ih _)

theorem fetchArrival (ch : Channel) (slot : Nat) (s : State) : PoolStep s (fetchArrival ch slot s) := by
  unfold Machine.fetchArrival
  dsimp only
  split
  · exact setFetch rfl rfl _
  · split
    · exact serveFetch _ s
    · exact setFetch rfl rfl _

theorem withdrawFetch (ch : Channel) (s : State) : PoolStep s (withdrawFetch ch s) := setFetch rfl rfl _

theorem grantTest (s : State) : PoolStep s (grantTest s) :=
  of_grants (agreesButGrants_grantTest s) (fun hs => ⟨grantTest_keeps_pool hs.1, grantTest_settles hs.1⟩)
    fun hs ch h => (congrArg Request.state (grantTest_record_none h hs.1)).trans h

/-! ### Requests, claims and releases -/

end PoolStep

theorem Template.need_le (t : Template) : t.need ≤ 2 := by
  unfold Template.need Template.p Template.q
  split <;> split <;> omega

theorem Library.need_le (l : Library) (slot : Nat) : l.need slot ≤ 2 := by
  unfold Library.need
  split <;> exact Template.need_le _

section
variable {s : State} {ch : Channel}

/-- A record that held nothing and still does changes no grant. -/
theorem Pool.held_setRecord_of_zero {p : Pool} {r : Request} (h0 : (p.records.get ch).granted = 0) (hr : r.granted = 0) :
    (p.setRecord ch r).held = p.held := by
  have := p.held_setRecord ch r
  omega

theorem Pool.Sound.granted_of_none {p : Pool} (h : p.Sound) (hn : (p.records.get ch).state = .none) :
    (p.records.get ch).granted = 0 := by
  have := h.2.1 ch
  unfold Request.Sound at this
  rw [hn] at this
  exact this.2

/-- A request of no scalers granted to a channel without a claim (R90). -/
theorem Pool.Sound.requestNone {p : Pool} (h : p.Sound) (hn : (p.records.get ch).state = .none) (start : FrameValue) :
    (p.setRecord ch { state := .granted, requested := 0, start := start, granted := 0 }).Sound ∧
      (p.Settled → (p.setRecord ch { state := .granted, requested := 0, start := start, granted := 0 }).Settled) := by
  have held := Pool.held_setRecord_of_zero (r := { state := .granted, requested := 0, start := start, granted := 0 })
    (h.granted_of_none hn) rfl
  obtain ⟨six, records, nodup, queue⟩ := h
  have out : ch ∉ p.queue := fun hm => by
    have := (queue ch).mp hm
    rw [hn] at this
    cases this
  refine ⟨⟨by rw [held]; exact six, fun c => ?_, nodup, fun c => ?_⟩, fun hs c hm => ?_⟩
  · rw [Pool.setRecord_records, PerChannel.get_set]
    split
    · exact ⟨Nat.zero_le _, Nat.le_refl _⟩
    · exact records c
  · rw [Pool.setRecord_records, Pool.setRecord_queue, PerChannel.get_set]
    split
    · rename_i hc
      rw [hc]
      exact ⟨fun hm => absurd hm out, nofun⟩
    · exact queue c
  · rw [Pool.setRecord_queue] at hm
    have hc : c ≠ ch := fun e => out (e ▸ hm)
    unfold Pool.free
    rw [held, Pool.setRecord_records, PerChannel.get_set_ne _ hc]
    exact hs c hm

/-- A request of 1 or 2 of a channel without a claim joins the queue (R90). -/
theorem Pool.Sound.request {p : Pool} (h : p.Sound) (hn : (p.records.get ch).state = .none) (start : FrameValue)
    {n : Nat} (hn1 : 1 ≤ n) (hn2 : n ≤ 2) :
    Pool.Sound { p.setRecord ch { state := .waiting, requested := n, start := start, granted := 0 } with
      queue := p.queue ++ [ch] } := by
  have held := Pool.held_setRecord_of_zero (r := { state := .waiting, requested := n, start := start, granted := 0 })
    (h.granted_of_none hn) rfl
  obtain ⟨six, records, nodup, queue⟩ := h
  have out : ch ∉ p.queue := fun hm => by
    have := (queue ch).mp hm
    rw [hn] at this
    cases this
  refine ⟨by rw [← held] at six; exact six, fun c => ?_, ?_, fun c => ?_⟩
  · dsimp only [Pool.setRecord_records]
    rw [PerChannel.get_set]
    split
    · exact ⟨hn1, hn2, rfl⟩
    · exact records c
  · exact List.nodup_append.mpr ⟨nodup, by simp, fun a ha b hb e => out (List.mem_singleton.mp hb ▸ e ▸ ha)⟩
  · dsimp only [Pool.setRecord_records]
    rw [PerChannel.get_set, List.mem_append, List.mem_singleton]
    split
    · rename_i hc
      exact ⟨fun _ => rfl, fun _ => .inr hc⟩
    · rename_i hc
      rw [queue c]
      exact ⟨fun e => e.resolve_right hc, .inl⟩

/-- The request of an engine out of IDLE whose channel has no claim (R90). -/
theorem scalerRequest_pool {n : Nat} (hn : (s.pool.records.get ch).state = .none)
    (ha : (s.chan ch).engine.state ≠ .idle) (h2 : n ≤ 2) (start : FrameValue) :
    PoolStep s (scalerRequest ch n start s) := fun hs => by
  obtain ⟨pool, claims⟩ := hs
  have others {c : Channel} (e : (s.chan c).engine.state = .idle) (r : Request) :
      ((s.pool.records.set ch r).get c).state = .none := by
    have hc : c ≠ ch := fun h => ha (h ▸ e)
    rw [PerChannel.get_set_ne _ hc]
    exact claims c e
  unfold scalerRequest
  split
  · obtain ⟨sound, settled⟩ := pool.requestNone hn start
    exact ⟨⟨sound, fun c e => others e _⟩, settled⟩
  · rename_i h0
    dsimp only
    have queued : State.PoolSound { s with pool := { s.pool.setRecord ch
        { state := .waiting, requested := n, start := start, granted := 0 } with queue := s.pool.queue ++ [ch] } } :=
      ⟨pool.request hn start (Nat.one_le_iff_ne_zero.mpr h0) h2, fun c e => others e _⟩
    exact ⟨(PoolStep.grantTest _ queued).1, fun _ => grantTest_settles queued.1⟩

theorem Pool.Sound.release {p : Pool} (h : p.Sound) (ch : Channel) : ((p.leaveQueue ch).setRecord ch .none).Sound :=
  h.resolve Request.none_sound nofun (Nat.zero_le _)

/-- A claim given back leaves a sound pool, the channel with no claim, whatever its engine (R95). -/
theorem releaseClaim_pool (hp : s.pool.Sound) (hc : ∀ c, c ≠ ch → s.ClaimsFit c) :
    (releaseClaim ch s).PoolSound ∧ (releaseClaim ch s).pool.Settled ∧
      ((releaseClaim ch s).pool.records.get ch).state = .none := by
  have released : State.PoolSound { s with pool := (s.pool.leaveQueue ch).setRecord ch .none } := by
    refine ⟨hp.release ch, fun c e => ?_⟩
    dsimp only [Pool.setRecord_records, Pool.leaveQueue_records]
    rw [PerChannel.get_set]
    split
    · rfl
    · exact hc c ‹_› e
  have none : (((s.pool.leaveQueue ch).setRecord ch .none).records.get ch).state = .none := by simp [Request.none]
  exact ⟨(PoolStep.grantTest _ released).1, grantTest_settles released.1,
    (congrArg Request.state (grantTest_record_none none released.1)).trans none⟩

theorem armTest_pool (ch : Channel) (s : State) : PoolStep s (armTest ch s) := by
  unfold armTest
  dsimp only
  split
  · rename_i e rest hi _
    split
    · intro hs
      unfold armEntry
      dsimp only
      refine ((PoolStep.modChan (s := s) fun _ => hi).trans ((PoolStep.fetchArrival ch e.slot _).trans
        (scalerRequest_pool ?_ ?_ (Library.need_le _ _) e.start))) hs
      · rw [fetchArrival_pool]
        exact hs.2 ch hi
      · have engines : ∀ u : State, ((fetchArrival ch e.slot u).chan ch).engine.state = (u.chan ch).engine.state :=
          fun u => by
            unfold fetchArrival
            dsimp only
            split
            · rw [State.setFetch_chan_engine]
              rfl
            · split
              · exact serveFetch_engineState _ u ch
              · rw [State.setFetch_chan_engine]
                rfl
        rw [engines, State.chan_modChan_same]
        exact nofun
    · exact .refl s
  · exact .refl s

/-- A junction end gives the claim back before its engine returns to IDLE (R45, R95). -/
theorem endWith_pool (ch : Channel) (o : JunctionOutcome) (lists : ChannelState → ChannelState) (s : State) :
    PoolStep s (endWith ch o lists s) := fun hs => by
  unfold endWith
  split
  · exact ⟨hs, id⟩
  · rename_i r _
    dsimp only
    obtain ⟨sound, settled, none⟩ := releaseClaim_pool (ch := ch) hs.1 fun c _ => hs.2 c
    obtain ⟨withdrawn, -⟩ := PoolStep.withdrawFetch ch _ sound
    have ended : ((withdrawFetch ch (releaseClaim ch s)).modChan ch (·.afterEnd lists (r.last o))).PoolSound := by
      refine ⟨withdrawn.1, fun c e => ?_⟩
      by_cases hc : c = ch
      · exact hc ▸ none
      · rw [State.chan_modChan_ne _ hc] at e
        exact withdrawn.2 c e
    obtain ⟨armed, keeps⟩ := armTest_pool ch _ ended
    exact ⟨armed, fun _ => keeps settled⟩

theorem finishEnd_pool (ch : Channel) (fe : FrameEnd) (s : State) : PoolStep s (finishEnd ch fe s) := by
  cases fe with
  | goes => exact .refl s
  | cut o => exact endWith_pool ch o _ s
  | ends o => exact endWith_pool ch o _ s

/-! ### The start event -/

/-- The start claim leaves a sound pool and every NONE record (R93). -/
theorem claimScalers_pool (hp : s.pool.Sound) :
    (claimScalers ch s).1.pool.Sound ∧
      ∀ c, (s.pool.records.get c).state = .none → ((claimScalers ch s).1.pool.records.get c).state = .none := by
  unfold claimScalers
  dsimp only
  split
  · exact ⟨hp, fun _ h => h⟩
  · rename_i hw
    obtain ⟨one, two, zero⟩ := (hp.2.1 ch).waiting hw
    refine ⟨hp.resolve ?_ ?_ ?_, fun c hn => ?_⟩
    · split
      · exact Request.none_sound
      · exact ⟨two, Nat.min_le_left _ _⟩
    · split <;> exact nofun
    · split
      · exact Nat.zero_le _
      · exact (Nat.min_le_right _ _).trans (Nat.le_add_right _ _)
    · have hc : c ≠ ch := fun e => by
        rw [e, hw] at hn
        cases hn
      dsimp only [Pool.setRecord_records, Pool.leaveQueue_records]
      rw [PerChannel.get_set_ne _ hc]
      exact hn
  · exact ⟨hp, fun _ h => h⟩

theorem templateStep_pool (ch : Channel) (s : State) : PoolStep s (templateStep ch s) :=
  .of_same (by unfold templateStep; split <;> rfl) fun c h => by rwa [templateStep_engineState] at h

theorem claimed_pool (ch : Channel) (s : State) : PoolStep s (s.claimed ch) := by
  refine (templateStep_pool ch s).trans (PoolStep.trans (t := grantTest (claimScalers ch (templateStep ch s)).1) ?_
    (.modChan_same rfl))
  refine PoolStep.of_grants ((agreesButGrants_claimScalers ch _).trans (agreesButGrants_grantTest _)) (fun hs => ?_)
    fun hs c hn => ?_
  · have claim := claimScalers_pool (ch := ch) hs.1
    exact ⟨grantTest_keeps_pool claim.1, grantTest_settles claim.1⟩
  · have claim := claimScalers_pool (ch := ch) hs.1
    exact (congrArg Request.state (grantTest_record_none (claim.2 c hn) claim.1)).trans (claim.2 c hn)

theorem startJunction_engine_state (c : ChannelState) (b : BankId) :
    (c.startJunction b).engine.state = .squeeze ∨ (c.startJunction b).engine.state = .held :=
  Engine.counterStep_state _ _

theorem startEvent_pool (ch : Channel) (s : State) : PoolStep s (startEvent ch s).1 := by
  have claimed := claimed_pool ch s
  rcases startEvent_cases ch s with ⟨-, he⟩ | ⟨r, -, ⟨-, he⟩ | ⟨-, he⟩⟩ <;> rw [he]
  · exact claimed
  · exact claimed.trans (.modChan_same rfl)
  · refine claimed.trans (.modChan fun e => ?_)
    rcases startJunction_engine_state (((s.claimed ch).chan ch).assignScalers (s.startGrant ch)) r.firstBank with
      hst | hst <;> cases hst.symm.trans e

theorem junctionFrame_pool (ch : Channel) (v : PromoValidity) (s : State) : PoolStep s (junctionFrame ch v s).1 := by
  by_cases hi : (s.chan ch).engine.state = .idle
  · unfold junctionFrame
    rw [hi]
    exact .refl s
  by_cases ha : (s.chan ch).engine.state = .armed
  · have started := startEvent_pool ch s
    unfold junctionFrame
    rw [ha]
    dsimp only
    split
    · split
      · rename_i he
        rw [he] at started
        exact started.trans (.modChan_same (by simp))
      · rename_i he
        rw [he] at started
        exact started.trans (finishEnd_pool ch _ _)
    · exact .refl s
  · rw [junctionFrame_of_running v hi ha]
    refine PoolStep.trans (PoolStep.modChan (f := fun c => (c.runOn v).1) fun e => ?_) (finishEnd_pool ch _ _)
    obtain ⟨items, hr⟩ := (s.chan ch).turn_result v
    rw [ChannelState.runOn_engine_state, hr] at e
    exact Engine.work_idle ha e

theorem engineWork_pool (ch : Channel) (s : State) : PoolStep s (engineWork ch s) := by
  unfold engineWork
  dsimp only
  split
  · split
    · exact (startEvent_pool ch s).trans (finishEnd_pool ch _ _)
    · exact .refl s
  · rename_i ha
    exact (PoolStep.modChan fun e => Engine.work_idle ha e).trans (finishEnd_pool ch _ _)

/-! ### Every change -/

theorem missFold_pool (ch : Channel) (o : JunctionOutcome) (l : List Entry) (s : State) :
    PoolStep s (l.foldl (missOne ch o) s) := by
  induction l generalizing s with
  | nil => exact .refl s
  | cons e l ih =>
    have missed : PoolStep s (missOne ch o s e) := PoolStep.modChan_same rfl
    exact missed.trans (ih _)

theorem jumpChannel_pool (s : State) (ch : Channel) : PoolStep s (jumpChannel s ch) := by
  have jumped : PoolStep s (jumpSchedule ch s) := by
    unfold jumpSchedule missUnless State.raise
    dsimp only
    exact ((PoolStep.modChan_same rfl).trans (missFold_pool ch _ _ _)).trans
      ((PoolStep.modChan_same rfl).trans (PoolStep.modChan_same rfl))
  unfold jumpChannel jumpEngine
  refine (jumped.trans (armTest_pool ch _)).trans (PoolStep.modChan_same ?_)
  split <;> rfl

theorem jumps_pool (l : List Channel) (s : State) : PoolStep s (l.foldl jumpChannel s) := by
  induction l generalizing s with
  | nil => exact .refl s
  | cons ch l ih => exact (jumpChannel_pool s ch).trans (ih _)

theorem libraryWork_pool (s : State) : PoolStep s (libraryWork s) := by
  unfold libraryWork
  split
  · exact (PoolStep.of_channels rfl rfl).trans (.serveFetch _ _)
  · dsimp only
    split
    · exact .of_channels rfl rfl
    · rename_i fl _
      split
      · rw [completeOperation_eq_serveAll]
        refine PoolStep.trans (.of_channels ?_ ?_) (.serveAll _ _)
        · cases fl.op <;> rfl
        · cases fl.op <;> rfl
      · exact .of_channels rfl rfl

/-- After a reset of every block no channel has a claim. -/
theorem poolStep_of_reset {t : State} (hp : t.pool = .atReset) : PoolStep s t := fun _ => by
  unfold State.PoolSound
  rw [hp]
  have none (ch : Channel) : Pool.atReset.records.get ch = .none := by cases ch <;> rfl
  refine ⟨⟨⟨Nat.zero_le _, fun ch => ?_, List.nodup_nil, fun ch => ?_⟩, fun ch _ => ?_⟩, fun _ ch hm => ?_⟩
  · rw [none]
    exact Request.none_sound
  · rw [none]
    exact ⟨fun hm => absurd hm List.not_mem_nil, nofun⟩
  · rw [none]
    rfl
  · exact absurd hm List.not_mem_nil

theorem channelReset_pool (ch : Channel) (s : State) : PoolStep s (channelReset ch s) := fun hs => by
  unfold channelReset
  obtain ⟨sound, settled, -⟩ := releaseClaim_pool (ch := ch)
    (s := s.modChan ch fun c => c.resetBlocks c.parser.afterChannelReset) hs.1 fun c hc e => hs.2 c (by
      rwa [State.chan_modChan_ne _ hc] at e)
  obtain ⟨withdrawn, keeps⟩ := PoolStep.withdrawFetch ch _ sound
  exact ⟨withdrawn, fun _ => keeps settled⟩

theorem Change.poolStep {t : State} (h : Change s t) : PoolStep s t := by
  cases h with
  | raise ch | record ch | append ch | clearMask ch | readback ch | disarm ch | skip ch | addressing ch | armReset ch
  | countArm ch | countPacket ch | newFrame ch | output ch | insert ch | keepEntries ch | tolerance ch | openLoad ch
  | dropLoad ch | compose ch | status ch | markEnd ch | reloadWatch ch => exact .modChan_same (ch := ch) rfl
  | appendItems ch x its => exact .modChan_same (congrArg Engine.state (ChannelState.appendItems_engine _ x its))
  | countLoad ch => exact .modChan_same (congrArg Engine.state (ChannelState.countLoad_engine _))
  | takeList ch v hst => exact .modChan_same (by simp)
  | startOperation op => rw [startOperation_eq]; exact .of_channels rfl rfl
  | volatileSlot | storeFail | protection | management | reference | judge => exact .of_channels rfl rfl
  | libraryWork => exact libraryWork_pool s
  | openFrame =>
    refine .of_same rfl fun ch e => ?_
    unfold Machine.openFrame at e
    rw [State.chan_mapChans] at e
    exact e
  | setTime v =>
    rw [setTimeBody_fst]
    exact (PoolStep.of_channels (t := s.atTime v) rfl rfl).trans ((jumps_pool _ _).trans (.grantTest _))
  | grantTest => exact .grantTest s
  | armTest ch => exact armTest_pool ch s
  | abort ch =>
    have aborting : PoolStep s (s.modChan ch (·.aborting)) := .modChan_same rfl
    exact aborting.trans (endWith_pool ch .aborted ChannelState.emptyBanks _)
  | channelReset ch => exact channelReset_pool ch s
  | partReset => exact poolStep_of_reset rfl
  | powerOn a b => exact poolStep_of_reset rfl
  | junctionFrame ch v => exact junctionFrame_pool ch v s
  | engineWork ch => exact engineWork_pool ch s

end

theorem State.queueSound_iff (s : State) : s.QueueSound ↔ s.PoolSound ∧ s.pool.Settled :=
  ⟨fun ⟨pool, _, settled⟩ => ⟨pool, settled⟩, fun ⟨pool, settled⟩ => ⟨pool, settled.length_le pool.1, settled⟩⟩

/-- Settles O7: every change is a step of the pool, and a settled pool has at most one channel waiting. -/
theorem stepKeepsThePool : Obligations.StepKeepsThePool := fun _ _ h =>
  ⟨step_keeps (p := State.PoolSound) (fun _ _ hc hs => (hc.poolStep hs).1) (fun _ _ hs => hs) h,
    step_keeps (p := State.QueueSound)
      (fun s t hc hs => by
        rw [State.queueSound_iff] at hs ⊢
        exact ⟨(hc.poolStep hs.1).1, (hc.poolStep hs.1).2 hs.2⟩)
      (fun _ _ hs => hs) h⟩

end Sys2Proof.Machine
end

section
/-!
PROOFS. The short answers of a taken packet: the state after reset (O3), common commands without management enable (O15),
END and EXTEND (O22), SET_UNIT and SET_MANAGEMENT (O48), CLEAR_EVENTS and READBACK (O53).
-/

namespace Sys2Proof.Machine

/-! ### The state after reset -/

theorem Engine.idle_template : Engine.idle.template = fallbackLayout := rfl

theorem channelsAtPowerOn_get (ch : Channel) : channelsAtPowerOn.get ch = .atPowerOn ch := by cases ch <;> rfl

theorem State.reset_chan (ch : Channel) : State.reset.chan ch = .atPowerOn ch := channelsAtPowerOn_get ch

theorem Library.delivered_storedSlot (i : SlotIndex) : Library.delivered.storedSlot i = .blank := by
  simp [Library.storedSlot, Library.delivered, Vector.get]

theorem Library.delivered_templatesSound : Library.delivered.TemplatesSound := by
  refine ⟨fun i t h => ?_, fun j t h => ?_, fun fl i t h => ?_⟩
  · rw [Library.delivered_storedSlot] at h
    cases h
  · simp [Library.delivered, Vector.get] at h
  · cases h

theorem Library.delivered_operationSound : Library.delivered.OperationSound :=
  operationSound_of_none rfl fun i => by
    rw [Library.delivered_storedSlot]
    exact nofun

theorem State.reset_poolSound : State.reset.PoolSound := by
  refine ⟨⟨Nat.zero_le _, fun ch => ?_, .nil, fun ch => ?_⟩, fun ch _ => ?_⟩ <;> cases ch <;>
    simp [State.reset, Pool.atReset, PerChannel.get, Request.none, Request.Sound]

/-- Settles O3: each clause is the soundness of a block's reset values. -/
theorem resetIsSound : Obligations.ResetIsSound := by
  have blocks {p : ChannelState → Prop} (h : ∀ ch, p (.atPowerOn ch)) (ch : Channel) : p (State.reset.chan ch) := by
    rw [State.reset_chan]
    exact h ch
  have banks (ch : Channel) : (ChannelState.atPowerOn ch).BanksSound :=
    (ChannelState.banksSound_iff _).2 (.atReset _)
  refine ⟨RefCounter.atPowerOn_sound _, (State.queueSound_iff _).2 ⟨State.reset_poolSound, nofun⟩,
    blocks (p := fun c => c.schedule.Sound _) fun _ => Schedule.atReset_sound _,
    ⟨Library.delivered_templatesSound, blocks (p := fun c => c.engine.Sound) fun _ => Engine.idle_sound⟩,
    blocks (p := fun c => c.tally = c.engine.state.tally) fun _ => rfl, blocks banks,
    blocks (p := fun c => c.parser.Sound) fun ch => Parser.atPowerOn_sound ch, ⟨.a, rfl⟩,
    blocks (p := fun c => c.composer.Sound) fun _ => Composer.atReset_sound,
    blocks (p := fun c => c.reporter.Sound) fun _ => ⟨Nat.zero_le _, nofun⟩, Library.delivered_operationSound,
    State.fetchesSound_of_none rfl rfl (blocks (p := fun c => c.fetch = .none) fun _ => rfl)⟩

/-! ### What a taken packet finds -/

@[simp] theorem State.taking_chan_engine (s : State) (ch : Channel) :
    ((s.taking ch).chan ch).engine = (s.chan ch).engine := State.modParser_chan_engine ..

@[simp] theorem State.taking_chan_promo (s : State) (ch : Channel) :
    ((s.taking ch).chan ch).promo = (s.chan ch).promo := State.modParser_chan_promo ..

@[simp] theorem State.taking_chan_reporter (s : State) (ch : Channel) :
    ((s.taking ch).chan ch).reporter = (s.chan ch).reporter := State.modParser_chan_reporter ..

@[simp] theorem State.taking_library (s : State) (ch : Channel) : (s.taking ch).library = s.library :=
  State.modParser_library ..

@[simp] theorem State.taking_ref (s : State) (ch : Channel) : (s.taking ch).ref = s.ref := State.modParser_ref ..

@[simp] theorem State.taking_pool (s : State) (ch : Channel) : (s.taking ch).pool = s.pool := State.modParser_pool ..

/-- Two changes of a channel that agree on its blocks are one. -/
theorem State.modChan_congr {s : State} {ch : Channel} {f g : ChannelState → ChannelState}
    (h : f (s.chan ch) = g (s.chan ch)) : s.modChan ch f = s.modChan ch g := congrArg (s.setChan ch) h

/-! ### Common commands -/

/-- A common command from a channel that is no manager never reaches its block (R167). -/
theorem take_ifManager_of_not_manager {s : State} {ch : Channel} (kind : Nat) (m : Match)
    (body : State → State × ResultCode) (h : s.management.get ch = false) :
    take ch kind m (ifManager ch body) s = s.refusing ch kind .notManager m :=
  take_eq_refusing (if_neg (by simp [h]))

/-- Settles O15: every common command is taken under `ifManager`. -/
theorem commonCommandsNeedManagement : Obligations.CommonCommandsNeedManagement := by
  intro ch m c s hc hm
  rw [exec_instr]
  refine congrArg Host.Outcome.next ?_
  have refused (body : State → State × ResultCode) := take_ifManager_of_not_manager c.kind m body hm
  cases c with
  | setTime v => exact refused _
  | templateWrite slot t => exact refused _
  | templateErase slot => exact refused _
  | protectSet r => exact refused _
  | lockSlot slot => exact refused _
  | unlockSlot slot => exact refused _
  | lockAll => exact refused _
  | unlockAll => exact refused _
  | freeze => exact refused _
  | setManagement f => exact refused _
  | _ => cases hc

/-! ### END and EXTEND -/

section
variable {s : State} {ch : Channel}

theorem endBody_of_marks (h : (s.chan ch).engine.state = .squeeze ∨ (s.chan ch).engine.state = .held ∨
    (s.chan ch).engine.state = .promoFull) :
    endBody ch s =
      (s.modChan ch fun c => { c with engine := { c.engine with marker := some .endCommand } }, .ok) := by
  rcases h with h | h | h <;> simp [endBody, h]

theorem endBody_of_wrong (h : (s.chan ch).engine.state = .idle ∨ (s.chan ch).engine.state = .armed ∨
    (s.chan ch).engine.state = .release ∨ (s.chan ch).engine.state = .takeover) :
    endBody ch s = (s, .wrongState) := by
  rcases h with h | h | h | h <;> simp [endBody, h]

theorem extendBody_of_watch {w : Nat} (h : (s.chan ch).engine.state = .held)
    (hw : (s.chan ch).engine.record.bind (·.watch) = some w) :
    extendBody ch s = (s.modChan ch fun c => { c with engine := { c.engine with watch := some w } }, .ok) := by
  simp only [extendBody, h]
  exact congrArg (·, ResultCode.ok) (State.modChan_congr (by simp only [hw]))

theorem extendBody_of_no_watch (h : (s.chan ch).engine.state = .held)
    (hw : (s.chan ch).engine.record.bind (·.watch) = none) : extendBody ch s = (s, .ok) := by
  simp only [extendBody, h]
  exact congrArg (·, ResultCode.ok) (State.modChan_eq_self (by simp only [hw]))

theorem extendBody_of_wrong (h : (s.chan ch).engine.state ≠ .held) : extendBody ch s = (s, .wrongState) := by
  unfold extendBody
  split
  · contradiction
  all_goals rfl

end

/-- Settles O22: the two commands by the state in which their block finds the engine. -/
theorem endAndExtendAnswerByState : Obligations.EndAndExtendAnswerByState := by
  intro ch m s
  dsimp only
  rw [← s.taking_chan_engine ch]
  exact ⟨fun h => congrArg Host.Outcome.next (take_eq_answering (endBody_of_marks h)),
    fun h => congrArg Host.Outcome.next (take_eq_refusing (endBody_of_wrong h)),
    fun w h hw => congrArg Host.Outcome.next (take_eq_answering (extendBody_of_watch h hw)),
    fun h hw => congrArg Host.Outcome.next (take_eq_refusing (extendBody_of_no_watch h hw)),
    fun h => congrArg Host.Outcome.next (take_eq_refusing (extendBody_of_wrong h))⟩

/-! ### SET_UNIT and SET_MANAGEMENT -/

theorem flagOf_eq (n : Nat) : flagOf n = if 1 < n then none else some (decide (n = 1)) := by
  match n with
  | 0 => rfl
  | 1 => rfl
  | n + 2 => simp [flagOf]

/-- A SET_UNIT that breaks a limit of R169. -/
def UnitBad (u : RawUnit) : Prop :=
  u.primaryId = 0 ∨ 255 ≤ u.primaryId ∨ 255 ≤ u.secondId ∨ u.mask = 0 ∨ 255 < u.mask ∨ 1 < u.allCall ∨ 1 < u.consume

theorem addressingOf_of_bad {u : RawUnit} (h : UnitBad u) : addressingOf u = none := by
  unfold addressingOf
  split
  · rfl
  · rename_i hn
    have flags : 1 < u.allCall ∨ 1 < u.consume := by
      unfold UnitBad at h
      omega
    rw [flagOf_eq, flagOf_eq]
    rcases flags with h | h
    · rw [if_pos h]
    · rw [if_pos h]
      split <;> simp_all

theorem addressingOf_of_good {u : RawUnit} (h : ¬ UnitBad u) :
    addressingOf u =
      some
        { primaryId := BitVec.ofNat 8 u.primaryId, secondId := BitVec.ofNat 8 u.secondId,
          mask := BitVec.ofNat 8 u.mask, allCall := decide (u.allCall = 1), consume := decide (u.consume = 1) } := by
  unfold UnitBad at h
  unfold addressingOf
  rw [if_neg (by omega), flagOf_eq, flagOf_eq, if_neg (by omega), if_neg (by omega)]

/-- No flag of a SET_MANAGEMENT is set exactly when its low four bits are 0 (R168). -/
theorem managementOf_none_iff (flags : Byte) :
    ((managementOf flags).a || (managementOf flags).b || (managementOf flags).c || (managementOf flags).d) = false ↔
      flags &&& 0x0F = 0 := by
  revert flags
  decide

theorem setManagementBody_of_none {flags : Byte} (h : flags &&& 0x0F = 0) (s : State) :
    setManagementBody flags s = (s, .badField) :=
  if_neg (by simp [(managementOf_none_iff flags).2 h])

theorem setManagementBody_of_some {flags : Byte} (h : flags &&& 0x0F ≠ 0) (s : State) :
    setManagementBody flags s = ({ s with management := managementOf flags }, .ok) :=
  if_pos (by rwa [ne_eq, ← managementOf_none_iff, Bool.not_eq_false] at h)

/-- Settles O48: the field checks as conditions on the fields, then the settings replaced whole. -/
theorem unitAndManagementAreReplacedWhole : Obligations.UnitAndManagementAreReplacedWhole := by
  intro ch m u flags s
  refine ⟨fun bad => congrArg Host.Outcome.next (take_eq_refusing ?_),
    fun good => congrArg Host.Outcome.next (take_eq_answering ?_), fun hm => ⟨fun h => ?_, fun h => ?_⟩⟩
  · simp only [setUnitBody, addressingOf_of_bad bad]
  · simp only [setUnitBody, addressingOf_of_good good, State.modParser]
  · exact congrArg Host.Outcome.next (take_ifManager_eq_refusing hm (setManagementBody_of_none h _))
  · exact congrArg Host.Outcome.next (take_ifManager_eq_answering hm (setManagementBody_of_some h _))

/-! ### CLEAR_EVENTS and READBACK -/

theorem Reporter.append_flag (r : Reporter) (e : ResultEntry) (f : Flag) : (r.append e).flag f = r.flag f := by
  unfold Reporter.append
  split <;> rfl

theorem Reporter.clearMask_flag (r : Reporter) (mask : BitVec 16) (f : Flag) :
    (r.clearMask mask).flag f = (r.flag f && !mask.getLsbD f.bit) := by
  have bound : f.bit < 10 := by cases f <;> decide
  simp [Reporter.flag, Reporter.clearMask, bound]

@[simp] theorem bankOf_code (k : BankId) : bankOf k.code = some k := by cases k <;> rfl

theorem bankOf_of_above {n : Nat} (h : 1 < n) : bankOf n = none := by
  match n with
  | 0 | 1 => omega
  | n + 2 => rfl

theorem Library.report_of_above (l : Library) {slot : Nat} (h : 40 < slot) : l.report slot = none := by
  have stored : storedIndex slot = none := storedIndex_of_outside (by omega)
  have other : volatileIndex slot = none := dif_neg (by omega)
  simp only [Library.report, stored, other]
  exact if_neg (by omega)

section
variable {s : State} {ch : Channel} {target a b : Nat}

/-- What the block finds does not depend on the taking. -/
theorem lookUp_taking : lookUp ch target a b (s.taking ch) = lookUp ch target a b s := by
  simp only [lookUp, State.taking_library, State.taking_chan_schedule, State.taking_chan_promo]

theorem exec_readback_of_found (m : Match) {r : Readback} (h : lookUp ch target a b s = .ok r) :
    exec (.readback ch m target a b) s =
      .next (((s.taking ch).modReporter ch ({ · with readback := some r })).answering ch 0x0E .ok m) :=
  congrArg Host.Outcome.next (take_eq_answering (by simp only [readbackBody, lookUp_taking, h]))

theorem exec_readback_of_absent (m : Match) (h : lookUp ch target a b s = .error .notFound) :
    exec (.readback ch m target a b) s =
      .next (((s.taking ch).modReporter ch ({ · with readback := none })).answering ch 0x0E .notFound m) :=
  congrArg Host.Outcome.next (take_eq_answering (by simp only [readbackBody, lookUp_taking, h]))

theorem exec_readback_of_bad (m : Match) (h : lookUp ch target a b s = .error .badField) :
    exec (.readback ch m target a b) s = .next (s.refusing ch 0x0E .badField m) :=
  congrArg Host.Outcome.next (take_eq_refusing (by simp only [readbackBody, lookUp_taking, h]))

theorem lookUp_of_target_above (h : 2 < target) : lookUp ch target a b s = .error .badField := by
  match target with
  | 0 | 1 | 2 => omega
  | n + 3 => rfl

end

theorem exec_clearEvents (ch : Channel) (m : Match) (mask : BitVec 16) (s : State) :
    exec (.clearEvents ch m mask) s =
      .next (((s.taking ch).modReporter ch (·.clearMask mask)).answering ch 0x0D .ok m) := rfl

/-- Settles O53: CLEAR_EVENTS is the mask on the flag word; READBACK by what `lookUp` finds under its keys. -/
theorem clearEventsAndReadback : Obligations.ClearEventsAndReadback := by
  intro ch m mask a b s
  refine ⟨⟨_, exec_clearEvents ch m mask s, ?_, fun f => ?_⟩, fun x h => exec_readback_of_found m ?_,
    fun h => exec_readback_of_absent m ?_, fun e h => exec_readback_of_found m ?_,
    fun h => exec_readback_of_absent m ?_, fun k hk i h => exec_readback_of_found m ?_,
    fun k hk h => exec_readback_of_absent m ?_, fun h => exec_readback_of_bad m ?_,
    fun target h => exec_readback_of_bad m (lookUp_of_target_above h)⟩
  · exact congrArg (State.answering · ch 0x0D .ok m) (State.modChan_congr (by simp [Reporter.clearMask]))
  · simp [State.answering, Reporter.append_flag, Reporter.clearMask_flag]
  · simp [lookUp, h]
  · simp [lookUp, s.library.report_of_above h]
  · simp [lookUp, h]
  · simp [lookUp, List.getElem?_eq_none h]
  · simp [lookUp, hk, h]
  · simp [lookUp, hk, List.getElem?_eq_none h]
  · simp [lookUp, bankOf_of_above h]

end Sys2Proof.Machine
end


section
/-!
PROOFS. The loading of banks: OPEN_BANK with its tests in order (O32), the check of an item, and ITEMS (O33).
-/

namespace Sys2Proof.Machine

/-! ### OPEN_BANK -/

theorem flagOf_bitOf (f : Bool) : flagOf (bitOf 1 f) = some f := by cases f <;> rfl

theorem openBankBody_of_bad {bank chain : Nat} (h : 1 < bank ∨ 1 < chain) (ch : Channel) (count : Nat) (s : State) :
    openBankBody ch bank count chain s = (s, .badField) := by
  unfold openBankBody
  rw [flagOf_eq]
  rcases h with h | h
  · rw [bankOf_of_above h]
  · rw [if_pos h]
    split <;> simp_all

section
variable {s : State} {ch : Channel} {b : BankId} {f : Bool} {count : Nat}

/-- OPEN_BANK with a bank and a chain flag that pass their checks. -/
theorem openBankBody_of_codes :
    openBankBody ch b.code count (bitOf 1 f) s =
      if count < 1 ∨ 31 < count then (s, .badCount)
      else if ((s.chan ch).promo.bank b).state = .playing then (s, .busy)
      else (s.modChan ch (·.openLoad b count f), .ok) := by
  simp only [openBankBody, bankOf_code, flagOf_bitOf]

/-- A bank other than the opened one is emptied exactly when the open load was on it (R71). -/
theorem ChannelState.openLoad_eq (c : ChannelState) (b : BankId) (count : Nat) (f : Bool) :
    c.openLoad b count f =
      { c with
        promo :=
          let opened : Bank := { state := .loading, items := [], chain := f }
          let dropped := c.parser.context.any fun x => decide (x.bank ≠ b)
          let other (q : Bank) : Bank := if dropped then .empty else q
          { c.promo with
            bank0 := if b = .bank0 then opened else other c.promo.bank0
            bank1 := if b = .bank1 then opened else other c.promo.bank1 }
        parser := { c.parser with context := some { bank := b, remaining := count, countdown := 250 } } } := by
  unfold ChannelState.openLoad
  cases hx : c.parser.context with
  | none => cases b <;> rfl
  | some x =>
    obtain ⟨y, remaining, countdown⟩ := x
    cases b <;> cases y <;> rfl

end

/-- Settles O32: the tests of `openBankBody` in their order, then the opened load. -/
theorem openBankOpensTheLoad : Obligations.OpenBankOpensTheLoad := by
  intro ch m bank count chain b f s
  refine ⟨fun h => congrArg Host.Outcome.next (take_eq_refusing (openBankBody_of_bad h ch count _)), ?_⟩
  rintro rfl rfl
  refine ⟨fun h => congrArg Host.Outcome.next (take_eq_refusing ?_), fun h1 h2 => ⟨fun h =>
    congrArg Host.Outcome.next (take_eq_refusing ?_), fun h => congrArg Host.Outcome.next (take_eq_answering ?_)⟩⟩
    <;> rw [openBankBody_of_codes]
  · rw [if_pos h]
  · rw [if_neg (by omega), if_pos (by rwa [s.taking_chan_promo])]
  · rw [if_neg (by omega), if_neg (by rwa [s.taking_chan_promo])]
    refine congrArg (·, ResultCode.ok) (State.modChan_congr ?_)
    rw [ChannelState.openLoad_eq, s.taking_chan_promo, s.taking_chan_context]

/-! ### The check of an item -/

/-- An item passes its check when none of the failures of R68 applies. -/
def ItemPasses (r : RawItem) : Prop :=
  r.source ≤ 2 ∧ r.duration ≠ 0 ∧ r.timing ≤ 1 ∧ (∀ g, r.gateLimit = some g → r.timing = 1 ∧ r.duration ≤ g) ∧
    (∀ a, r.pgmAudio = some a → a ≤ 3) ∧ ∀ a, r.prmAudio = some a → a ≤ 3

theorem codeOk_iff (o : Option Nat) : codeOk o = true ↔ ∀ a, o = some a → a ≤ 3 := by
  cases o <;> simp [codeOk]

theorem sourceOf_of_le {n : Nat} (h : n ≤ 2) : ∃ x, sourceOf n = some x ∧ x.code = n := by
  match n with
  | 0 => exact ⟨.prm1, rfl, rfl⟩
  | 1 => exact ⟨.prm2, rfl, rfl⟩
  | 2 => exact ⟨.backing, rfl, rfl⟩
  | n + 3 => omega

theorem sourceOf_of_above {n : Nat} (h : 2 < n) : sourceOf n = none := by
  match n with
  | 0 | 1 | 2 => omega
  | n + 3 => rfl

theorem defaultGateLimit_eq (d : Nat) : defaultGateLimit d = if 65535 < 2 * d then 65535 else 2 * d := by
  unfold defaultGateLimit
  split <;> omega

/-- The timing of an item whose timing code and gate limit pass (R67, R68). -/
theorem timingOf_of_passes {t d : Nat} {g : Option Nat} (ht : t ≤ 1) (hg : ∀ x, g = some x → t = 1 ∧ d ≤ x) :
    timingOf t d g =
      some (if t = 0 then .fixed else .gated (g.getD (if 65535 < 2 * d then 65535 else 2 * d))) := by
  match t, g with
  | 0, none => rfl
  | 0, some x => exact absurd (hg x rfl).1 (by decide)
  | 1, none => simp [timingOf, defaultGateLimit_eq]
  | 1, some x => simpa [timingOf] using (hg x rfl).2
  | t + 2, _ => omega

theorem timingOf_of_fails {t d : Nat} {g : Option Nat} (h : ¬ (t ≤ 1 ∧ ∀ x, g = some x → t = 1 ∧ d ≤ x)) :
    timingOf t d g = none := by
  match t, g with
  | 0, none => exact absurd ⟨Nat.zero_le _, nofun⟩ h
  | 0, some x => rfl
  | 1, none => exact absurd ⟨le_rfl, nofun⟩ h
  | 1, some x =>
    have short : x < d := by
      by_contra hx
      exact h ⟨le_rfl, fun y hy => ⟨rfl, by cases hy; omega⟩⟩
    simp [timingOf, short]
  | t + 2, _ => simp [timingOf]

theorem itemOf_of_fails {r : RawItem} (h : ¬ ItemPasses r) : itemOf r = none := by
  unfold itemOf
  split
  · rfl
  · rename_i hn
    simp only [Bool.not_eq_true', not_or, Bool.not_eq_false, codeOk_iff] at hn
    obtain ⟨hd, hp, hr⟩ := hn
    by_cases hs : r.source ≤ 2
    · have ht : ¬ (r.timing ≤ 1 ∧ ∀ g, r.gateLimit = some g → r.timing = 1 ∧ r.duration ≤ g) := fun ht =>
        h ⟨hs, hd, ht.1, ht.2, hp, hr⟩
      rw [timingOf_of_fails ht]
      split <;> simp_all
    · rw [sourceOf_of_above (by omega)]

theorem itemOf_of_passes {r : RawItem} (h : ItemPasses r) :
    ∃ i, itemOf r = some i ∧ i.tag = r.tag ∧ i.source.code = r.source ∧ i.duration = r.duration ∧
      i.pgmAudio = r.pgmAudio ∧ i.prmAudio = r.prmAudio ∧
      i.timing =
        if r.timing = 0 then .fixed
        else .gated (r.gateLimit.getD (if 65535 < 2 * r.duration then 65535 else 2 * r.duration)) := by
  obtain ⟨hs, hd, ht, hg, hp, hr⟩ := h
  obtain ⟨x, hx, code⟩ := sourceOf_of_le hs
  have audio : ¬ (r.duration = 0 ∨ (!codeOk r.pgmAudio) = true ∨ (!codeOk r.prmAudio) = true) := by
    simp [hd, (codeOk_iff _).2 hp, (codeOk_iff _).2 hr]
  have built : itemOf r =
      some
        { tag := r.tag, source := x, duration := r.duration, pgmAudio := r.pgmAudio, prmAudio := r.prmAudio
          timing :=
            if r.timing = 0 then .fixed
            else .gated (r.gateLimit.getD (if 65535 < 2 * r.duration then 65535 else 2 * r.duration)) } := by
    simp only [itemOf, if_neg audio, hx, timingOf_of_passes ht hg]
  exact ⟨_, built, rfl, code, rfl, rfl, rfl, rfl⟩

/-! ### ITEMS -/

theorem itemsOf_of_bad {raw : List RawItem} (h : ∃ i ∈ raw, itemOf i = none) : itemsOf raw = none := by
  induction raw with
  | nil => simp at h
  | cons r rest ih =>
    unfold itemsOf
    rcases List.exists_mem_cons_iff .. |>.1 h with h | h
    · rw [h]
    · rw [ih h]
      split <;> simp_all

theorem itemsOf_of_map {raw : List RawItem} {its : List Item} (h : raw.map itemOf = its.map some) :
    itemsOf raw = some its := by
  induction raw generalizing its with
  | nil => rw [List.map_eq_nil_iff.1 h.symm]; rfl
  | cons r rest ih =>
    cases its with
    | nil => cases h
    | cons i is =>
      obtain ⟨hr, hrest⟩ := List.cons.inj h
      simp only [itemsOf, hr, ih hrest]

section
variable {s : State} {ch : Channel} {raw : List RawItem} {x : LoadContext} {its : List Item}

theorem exec_items (m : Match) (h1 : 1 ≤ raw.length) (h8 : raw.length ≤ 8) :
    exec (.items ch m raw) s = .next (take ch 0x0A m (itemsBody ch raw) s) :=
  congrArg Host.Outcome.next (if_neg (by omega))

theorem itemsBody_of_none (h : (s.chan ch).parser.context = none) : itemsBody ch raw s = (s, .noContext) := by
  simp only [itemsBody, h]

theorem itemsBody_of_many (h : (s.chan ch).parser.context = some x) (hx : x.remaining < raw.length) :
    itemsBody ch raw s = (s, .badCount) := by
  simp only [itemsBody, h, if_pos hx]

theorem itemsBody_of_bad (h : (s.chan ch).parser.context = some x) (hx : raw.length ≤ x.remaining)
    (hb : ∃ i ∈ raw, itemOf i = none) : itemsBody ch raw s = (s, .badField) := by
  simp only [itemsBody, h, if_neg hx.not_gt, itemsOf_of_bad hb]

theorem itemsBody_of_good (h : (s.chan ch).parser.context = some x) (hx : raw.length ≤ x.remaining)
    (hi : raw.map itemOf = its.map some) :
    itemsBody ch raw s =
      (s.modChan ch (·.appendItems x its), if raw.length = x.remaining then .sealed else .ok) := by
  simp only [itemsBody, h, if_neg hx.not_gt, itemsOf_of_map hi]

end

/-- Settles O33: the check of an item by its failures, and ITEMS by the tests of `itemsBody` in their order. -/
theorem itemsAppendAndSeal : Obligations.ItemsAppendAndSeal := by
  refine ⟨fun r => ⟨itemOf_of_fails, itemOf_of_passes⟩, fun ch m raw s h1 h8 => ?_⟩
  dsimp only
  rw [exec_items m h1 h8, ← s.taking_chan_context ch, ← s.taking_chan_promo ch]
  refine ⟨fun h => congrArg Host.Outcome.next (take_eq_refusing (itemsBody_of_none h)), fun x hx =>
    ⟨fun h => congrArg Host.Outcome.next (take_eq_refusing (itemsBody_of_many hx h)), fun h hb =>
      congrArg Host.Outcome.next (take_eq_refusing (itemsBody_of_bad hx h hb)), fun its hi => ?_⟩⟩
  have count : its.length = raw.length := by simpa using (congrArg List.length hi).symm
  refine ⟨fun h => congrArg Host.Outcome.next (take_eq_answering ?_), fun h =>
    congrArg Host.Outcome.next (take_eq_answering ?_)⟩
  · rw [itemsBody_of_good hx h.le hi, if_neg h.ne]
    refine congrArg (·, ResultCode.ok) (State.modChan_congr ?_)
    simp only [ChannelState.appendItems, count, if_neg (Nat.sub_ne_zero_of_lt h)]
    rfl
  · rw [itemsBody_of_good hx h.le hi, if_pos h]
    refine congrArg (·, ResultCode.sealed) (State.modChan_congr ?_)
    simp only [ChannelState.appendItems, count, h, Nat.sub_self, if_true]

end Sys2Proof.Machine
end


section
/-!
PROOFS. The Scaler Pool, the Template Library and Library Protection by their commands and events: the lone request
(O37), the validation of a template (O38), stores and erases (O39), the library frame event (O40, O41), the protected set
and the guard (O42), PROTECT_SET (O44).
-/

namespace Sys2Proof.Machine

/-! ### The lone waiting request -/

/-- The grant test of a lone request is one look at it (R92). -/
theorem grantTest_of_lone {s : State} {ch : Channel} (h : s.pool.queue = [ch]) :
    grantTest s =
      if (s.pool.records.get ch).requested ≤ s.pool.free then s.grantTo ch (s.pool.records.get ch).requested
      else s := by
  have same : ({ s with pool := { s.pool with queue := [ch] } } : State) = s := by rw [← h]
  simp only [grantTest, h, Pool.ordered, Pool.place, List.length_singleton, same, grantLoop]

theorem State.grantTo_of_lone {s : State} {ch : Channel} (h : s.pool.queue = [ch]) (n : Nat) :
    s.grantTo ch n =
      ({ s with
        pool :=
          { records := s.pool.records.set ch { s.pool.records.get ch with state := .granted, granted := n }
            queue := [] } }.modRecord ch ({ · with granted := n })) := by
  simp [State.grantTo, Pool.leaveQueue, Pool.setRecord, h]

/-- Settles O37: the grant test of a lone request grants it or leaves it. -/
theorem scalerGrantServesTheHead : Obligations.ScalerGrantServesTheHead := by
  intro ch s h
  refine ⟨fun hn => congrArg Host.Outcome.next ?_, fun hn => congrArg Host.Outcome.next ?_⟩ <;>
    rw [grantTest_of_lone h]
  · rw [if_pos (show _ ≤ s.pool.free from hn), State.grantTo_of_lone h]
    rfl
  · rw [if_neg (show ¬ _ ≤ s.pool.free from Nat.not_le.2 hn)]

/-! ### The validation of a template -/

theorem labelOk_iff (o : Option (List Nat)) :
    labelOk o = true ↔ ∀ l, o = some l → l.length ≤ 16 ∧ ∀ c ∈ l, 0x20 ≤ c ∧ c ≤ 0x7E := by
  cases o <;> simp [labelOk]

theorem colourOk_iff (c : Colour) :
    colourOk c = true ↔
      64 ≤ c.luma ∧ c.luma ≤ 940 ∧ 64 ≤ c.cb ∧ c.cb ≤ 960 ∧ 64 ≤ c.cr ∧ c.cr ≤ 960 := by
  simp [colourOk, and_assoc]

/-- The tests of R102 are the ranges and the three codes. -/
theorem templatePasses_iff (r : RawTemplate) :
    TemplatePasses r ↔ templateRangesOk r = true ∧ r.layering ≤ 1 ∧ r.easeIn ≤ 3 ∧ r.easeOut ≤ 3 := by
  simp only [TemplatePasses, templateRangesOk, Bool.and_eq_true, decide_eq_true_eq, labelOk_iff, rectOk_iff,
    colourOk_iff, forall_eq_or_imp, forall_eq]
  tauto

theorem layeringOf_of_le {n : Nat} (h : n ≤ 1) : ∃ l, layeringOf n = some l ∧ l.code = n := by
  match n with
  | 0 => exact ⟨.programmeOnTop, rfl, rfl⟩
  | 1 => exact ⟨.promoOnTop, rfl, rfl⟩
  | n + 2 => omega

theorem layeringOf_of_above {n : Nat} (h : 1 < n) : layeringOf n = none := by
  match n with
  | 0 | 1 => omega
  | n + 2 => rfl

theorem easingOf_of_le {n : Nat} (h : n ≤ 3) : ∃ e, easingOf n = some e ∧ e.code = n := by
  match n with
  | 0 => exact ⟨.linear, rfl, rfl⟩
  | 1 => exact ⟨.easeIn, rfl, rfl⟩
  | 2 => exact ⟨.easeOut, rfl, rfl⟩
  | 3 => exact ⟨.easeBoth, rfl, rfl⟩
  | n + 4 => omega

theorem easingOf_of_above {n : Nat} (h : 3 < n) : easingOf n = none := by
  match n with
  | 0 | 1 | 2 | 3 => omega
  | n + 4 => rfl

/-- A record that passes is the template its codes name (R102). -/
theorem templateOf_of_passes {r : RawTemplate} (h : TemplatePasses r) : ∃ t, templateOf r = some t ∧ t.raw = r := by
  obtain ⟨ranges, hl, hi, ho⟩ := (templatePasses_iff r).1 h
  obtain ⟨l, el, cl⟩ := layeringOf_of_le hl
  obtain ⟨i, ei, ci⟩ := easingOf_of_le hi
  obtain ⟨o, eo, co⟩ := easingOf_of_le ho
  simp only [templateOf, if_pos ranges, el, ei, eo]
  exact ⟨_, rfl, by simp only [Template.raw, cl, ci, co]⟩

theorem templateOf_of_fails {r : RawTemplate} (h : ¬ TemplatePasses r) : templateOf r = none := by
  unfold templateOf
  split
  · rename_i ranges
    have codes : 1 < r.layering ∨ 3 < r.easeIn ∨ 3 < r.easeOut := by
      by_contra hc
      exact h ((templatePasses_iff r).2 ⟨ranges, by omega, by omega, by omega⟩)
    rcases codes with hc | hc | hc
    · rw [layeringOf_of_above hc]
    · rw [easingOf_of_above hc]
      split <;> simp_all
    · rw [easingOf_of_above hc]
      split <;> simp_all
  · rfl

theorem volatileIndex_of_outside {slot : Nat} (h : slot < 33 ∨ 40 < slot) : volatileIndex slot = none :=
  dif_neg (by omega)

theorem volatileIndex_add (j : Fin 8) : volatileIndex (j.val + 33) = some j := by
  have bound := j.isLt
  simp [volatileIndex]
  omega

section
variable {slot : Nat} {raw : RawTemplate} {s : State}

theorem templateWriteBody_of_bad (h : ¬ TemplatePasses raw ∨ slot = 0 ∨ 40 < slot) :
    templateWriteBody slot raw s = (s, .badField) := by
  rcases h with h | h
  · simp only [templateWriteBody, templateOf_of_fails h]
  · have stored : storedIndex slot = none := storedIndex_of_outside (by omega)
    have other : volatileIndex slot = none := volatileIndex_of_outside (by omega)
    cases ht : templateOf raw <;> simp only [templateWriteBody, ht, stored, other]

theorem templateEraseBody_of_bad (h : slot = 0 ∨ 40 < slot) : templateEraseBody slot s = (s, .badField) := by
  have stored : storedIndex slot = none := storedIndex_of_outside (by omega)
  have other : volatileIndex slot = none := volatileIndex_of_outside (by omega)
  simp only [templateEraseBody, stored, other]

end

/-- Settles O38: the tests of `templateOf` are those of R102, and it keeps every field. -/
theorem templatesAreValidated : Obligations.TemplatesAreValidated := fun _ _ _ _ _ =>
  ⟨fun hm h => congrArg Host.Outcome.next (take_ifManager_eq_refusing hm (templateWriteBody_of_bad h)),
    fun hm h => congrArg Host.Outcome.next (take_ifManager_eq_refusing hm (templateEraseBody_of_bad h)),
    templateOf_of_passes⟩

/-! ### Stores and erases -/

section
variable {raw : RawTemplate} {t : Template} {i : SlotIndex} {j : Fin 8} {s : State}

theorem templateWriteBody_stored (ht : templateOf raw = some t) :
    templateWriteBody (i.val + 1) raw s = storeOrErase i (.write i t) s := by
  simp only [templateWriteBody, ht, storedIndex_succ]

theorem templateEraseBody_stored : templateEraseBody (i.val + 1) s = storeOrErase i (.erase i) s := by
  simp only [templateEraseBody, storedIndex_succ]

theorem templateWriteBody_volatile (ht : templateOf raw = some t) :
    templateWriteBody (j.val + 33) raw s = changeVolatile j (some t) s := by
  have stored : storedIndex (j.val + 33) = none := storedIndex_of_outside (by omega)
  simp only [templateWriteBody, ht, stored, volatileIndex_add]

theorem templateEraseBody_volatile : templateEraseBody (j.val + 33) s = changeVolatile j none s := by
  have stored : storedIndex (j.val + 33) = none := storedIndex_of_outside (by omega)
  simp only [templateEraseBody, stored, volatileIndex_add]

end

/-- A store or an erase of a stored slot by a manager, in the order of its tests (R107, R108, R110). -/
theorem take_storeOrErase {ch : Channel} {k : Nat} {m : Match} {i : SlotIndex} {op : Operation} {s : State}
    {body : State → State × ResultCode} (hm : s.management.get ch = true) (hop : op.slot = some i)
    (hb : body (s.taking ch) = storeOrErase i op (s.taking ch)) :
    (s.library.operation ≠ none → take ch k m (ifManager ch body) s = s.refusing ch k .busy m) ∧
      (s.library.operation = none → s.protection.protects i = true →
        take ch k m (ifManager ch body) s =
          { s.taking ch with library := { s.library with storeFail := true } }.answering ch k .protectedSlot m) ∧
      (s.library.operation = none → s.protection.protects i = false →
        take ch k m (ifManager ch body) s =
          { s.taking ch with
            library :=
              { s.library with
                stored := s.library.stored.set i.val .underOperation i.isLt
                operation := some { op := op, progress := 0 }, suspended := false } }.answering ch k .ok m) := by
  refine ⟨fun h => take_ifManager_eq_refusing hm (hb.trans ?_), fun h hp =>
    take_ifManager_eq_answering hm (hb.trans ?_), fun h hp => take_ifManager_eq_answering hm (hb.trans ?_)⟩ <;>
    unfold storeOrErase
  · rw [if_pos (by simpa [Option.isSome_iff_ne_none] using h)]
  · rw [if_neg (by simp [h]), if_pos (by simpa using hp)]
    rfl
  · rw [if_neg (by simp [h]), if_neg (by simp [hp])]
    simp only [startOperation, hop]
    rfl

/-- Settles O39: a store and an erase of a stored slot are one block, and a volatile slot is changed at once. -/
theorem storesAndErasesAreTaken : Obligations.StoresAndErasesAreTaken := by
  intro ch m raw t i j k op cmd s hm ht
  refine ⟨?_, congrArg Host.Outcome.next (take_ifManager_eq_answering hm (templateWriteBody_volatile ht)),
    congrArg Host.Outcome.next (take_ifManager_eq_answering hm templateEraseBody_volatile)⟩
  rintro (⟨rfl, rfl, rfl⟩ | ⟨rfl, rfl, rfl⟩)
  · obtain ⟨busy, kept, taken⟩ := take_storeOrErase (k := 0x21) (m := m) hm (op := .write i t) rfl
      (templateWriteBody_stored ht)
    exact ⟨fun h => congrArg Host.Outcome.next (busy h), fun h hp => congrArg Host.Outcome.next (kept h hp),
      fun h hp => congrArg Host.Outcome.next (taken h hp)⟩
  · obtain ⟨busy, kept, taken⟩ := take_storeOrErase (k := 0x22) (m := m) hm (op := .erase i) rfl
      templateEraseBody_stored
    exact ⟨fun h => congrArg Host.Outcome.next (busy h), fun h hp => congrArg Host.Outcome.next (kept h hp),
      fun h hp => congrArg Host.Outcome.next (taken h hp)⟩

/-! ### The library frame event -/

theorem libraryWork_of_queued {s : State} {f : Fetch} {rest : List Fetch} (h : s.library.fetchQueue = f :: rest) :
    libraryWork s =
      serveFetch f
        { s with library := { s.library with fetchQueue := rest, suspended := s.library.operation.isSome } } := by
  simp only [libraryWork, h]

/-- Settles O40: the head of the queue is served, whichever of the two rows names the event. -/
theorem libraryServesTheQueueHead : Obligations.LibraryServesTheQueueHead := by
  intro i f rest s h hi
  have row : exec i s = .next (libraryWork s) := by
    rcases hi with rfl | rfl
    · rfl
    · exact congrArg Host.Outcome.next (if_pos (.inl (by simp [h])))
  rw [row, libraryWork_of_queued h]
  rfl

section
variable {s : State} {fl : InFlight}

theorem libraryWork_of_progress (hq : s.library.fetchQueue = []) (ho : s.library.operation = some fl)
    (hp : fl.progress + 1 < fl.op.length) :
    libraryWork s =
      { s with
        library :=
          { s.library with
            operation := some { fl with progress := fl.progress + 1 }, suspended := false } } := by
  simp only [libraryWork, hq, ho, ge_iff_le, if_neg hp.not_ge]

theorem libraryWork_of_last (hq : s.library.fetchQueue = []) (ho : s.library.operation = some fl)
    (hp : fl.op.length ≤ fl.progress + 1) :
    libraryWork s = completeOperation fl.op { s with library := { s.library with suspended := false } } := by
  simp only [libraryWork, hq, ho, ge_iff_le, if_pos hp]

theorem completesNext_of_last (hq : s.library.fetchQueue = []) (ho : s.library.operation = some fl)
    (hp : fl.op.length ≤ fl.progress + 1) : completesNext s = true := by
  simp [completesNext, hq, ho, hp]

/-- The three rows that can name the event at which an operation completes (R111, R115). -/
theorem exec_completion {i : Instr} (hq : s.library.fetchQueue = []) (ho : s.library.operation = some fl)
    (hp : fl.op.length ≤ fl.progress + 1)
    (hi : i = .libraryFrameEvent ∨ i = .operationComplete ∨ ∃ f ∈ s.library.setAside, i = .fetchServed f.channel) :
    exec i s = .next (completeOperation fl.op { s with library := { s.library with suspended := false } }) := by
  rw [← libraryWork_of_last hq ho hp]
  have completes := completesNext_of_last hq ho hp
  rcases hi with rfl | rfl | ⟨f, hf, rfl⟩
  · rfl
  · exact congrArg Host.Outcome.next (if_pos completes)
  · exact congrArg Host.Outcome.next (if_pos (.inr ⟨completes, by simpa using ⟨f, hf, rfl⟩⟩))

end

/-- A channel's blocks after its fetch has been served with a content (R114, R115). -/
def ChannelState.served (c : ChannelState) (content : Option Template) : ChannelState :=
  { c with
    fetch := .served
    engine :=
      c.engine.modRecord fun r =>
        { r with
          template := some (content.getD fallbackLayout), fallbackUsed := r.fallbackUsed || content.isNone }
    reporter :=
      { c.reporter with flags := c.reporter.flags ||| (if content.isNone then Flag.fallbackUsed.word else 0) } }

/-- A fetch served twice with one content is a fetch served (R115). -/
theorem ChannelState.served_served (c : ChannelState) (content : Option Template) :
    (c.served content).served content = c.served content := by
  simp [ChannelState.served, Engine.modRecord, Function.comp_def, BitVec.or_assoc, Bool.or_assoc]

theorem serveFetch_eq (f : Fetch) (s : State) :
    serveFetch f s = s.modChan f.channel (·.served (s.library.content f.slot)) := by
  unfold serveFetch
  refine State.modChan_congr ?_
  cases h : (s.library.content f.slot) <;> simp [ChannelState.served, h, Reporter.raise]

/-- A list of fetches of one content: each of their channels is served with it (R115). -/
theorem serveAll_chan {l : List Fetch} {content : Option Template} {s : State}
    (h : ∀ f ∈ l, s.library.content f.slot = content) (ch : Channel) :
    (serveAll l s).chan ch = if ch ∈ l.map Fetch.channel then (s.chan ch).served content else s.chan ch := by
  induction l generalizing s with
  | nil => rfl
  | cons f rest ih =>
    have step : serveAll (f :: rest) s = serveAll rest (serveFetch f s) := rfl
    rw [step, ih (s := serveFetch f s) fun g hg => h g (.tail _ hg), serveFetch_eq, h f (.head _)]
    by_cases hc : ch = f.channel
    · subst hc
      by_cases hr : f.channel ∈ rest.map Fetch.channel <;> simp [hr, ChannelState.served_served]
    · simp [hc, State.chan_modChan_ne _ hc]

theorem Library.content_succ (l : Library) (k : SlotIndex) :
    l.content (k.val + 1) = match l.storedSlot k with
      | .valid t => some t
      | _ => none := by
  simp only [Library.content, Library.report, if_neg (Nat.succ_ne_zero _), storedIndex_succ]
  cases l.storedSlot k <;> rfl

/-- The library a store or an erase leaves at its completion (R111, R112). -/
def Library.completed (l : Library) (k : SlotIndex) (result : StoredSlot) : Library :=
  { l with
    stored := l.stored.set k.val result k.isLt, operation := none, setAside := [], storeFail := false,
    suspended := false }

theorem Library.completed_content (l : Library) (k : SlotIndex) (result : StoredSlot) :
    (l.completed k result).content (k.val + 1) = match result with
      | .valid t => some t
      | _ => none := by
  have slot : (l.completed k result).storedSlot k = result := by
    have same := storedSlot_setStored l k k result
    rwa [if_pos rfl] at same
  rw [Library.content_succ, slot]

theorem serveAll_completed {s : State} {k : SlotIndex} {result : StoredSlot} {content : Option Template}
    (hc : (s.library.completed k result).content (k.val + 1) = content)
    (ha : ∀ f ∈ s.library.setAside, f.slot = k.val + 1) :
    ∃ t, serveAll s.library.setAside { s with library := s.library.completed k result } = t ∧
      t = { s with library := s.library.completed k result, channels := t.channels } ∧
      ∀ ch, t.chan ch =
        if ch ∈ s.library.setAside.map Fetch.channel then (s.chan ch).served content else s.chan ch :=
  ⟨_, rfl, serveAll_eq _ _, fun ch => serveAll_chan (fun f hf => by rw [ha f hf]; exact hc) ch⟩

/-- Settles O41: the event short of the length counts, the one at the length is the completion, with the fetches set
aside served from the slot it leaves. -/
theorem operationsProgressAndComplete : Obligations.OperationsProgressAndComplete := by
  intro i fl s hq ho
  refine ⟨fun hp hi => ?_, fun hp hi => ⟨fun k result served failed hop ha => ?_, fun p hop hs => ?_⟩⟩
  · subst hi
    exact congrArg Host.Outcome.next (libraryWork_of_progress hq ho hp)
  · rw [exec_completion hq ho hp hi]
    rcases hop with ⟨t, hop, rfl, rfl, rfl⟩ | ⟨hop, rfl, rfl, rfl⟩ <;> rw [hop]
    · obtain ⟨u, e, rest, chans⟩ := serveAll_completed (s.library.completed_content k (.valid served)) ha
      exact ⟨u, congrArg Host.Outcome.next e, rest, chans⟩
    · obtain ⟨u, e, rest, chans⟩ := serveAll_completed (s.library.completed_content k .blank) ha
      exact ⟨u, congrArg Host.Outcome.next e, rest, chans⟩
  · rw [exec_completion hq ho hp hi, hop]
    refine congrArg Host.Outcome.next ?_
    simp only [completeOperation, applyOperation, hs, serveAll, List.foldl_nil]
    cases s.protection.guardState <;> cases hp : p.storedGuard <;>
      simp [GuardState.afterCommit, StoredGuard.toGuard, hp]

/-! ### The protected set and the guard -/

theorem rangeLength_of_code {code n : Nat} (h : [0, 1, 2, 4, 8, 16, 32][code]? = some n) : rangeLength code = n := by
  match code with
  | 0 | 1 | 2 | 3 | 4 | 5 | 6 => exact Option.some.inj h
  | code + 7 => simp at h

/-- A stored slot lies in the run of SIZE_CODE at the end SIDE names (R122). -/
theorem Protection.inRange_iff {p : Protection} {n : Nat} (h : rangeLength p.sizeCode = n) (i : SlotIndex) :
    p.inRange (i.val + 1) = true ↔
      (p.side = .low ∧ 1 ≤ i.val + 1 ∧ i.val + 1 ≤ n) ∨ (p.side = .high ∧ 33 ≤ i.val + 1 + n ∧ i.val + 1 ≤ 32) := by
  have bound := i.isLt
  cases hs : p.side <;> simp only [Protection.inRange, hs, h, decide_eq_true_eq] <;> simp <;> omega

/-- Settles O42: the run by its length and its end, COMPLEMENT as its negation, and the two commands that leave the
protected set standing. -/
theorem protectedSetAndTheGuard : Obligations.ProtectedSetAndTheGuard := by
  refine ⟨fun p i n hn => ?_, fun ch m level s => ⟨fun hm => ?_, rfl, fun i => rfl⟩⟩
  · have run := Protection.inRange_iff (rangeLength_of_code hn) i
    refine ⟨fun hm hc => ?_, fun hm hc => ?_, fun hm => ?_⟩
    · simp only [LibraryProtection.protects, hm, hc, Bool.xor_false]
      exact run
    · simp only [LibraryProtection.protects, hm, hc, Bool.xor_true, Bool.not_eq_true']
      rw [← Bool.not_eq_true]
      exact not_congr run
    · simp only [LibraryProtection.protects, hm]
  · exact congrArg Host.Outcome.next (take_ifManager_eq_answering hm rfl)

/-! ### PROTECT_SET -/

/-- A PROTECT_SET with a field out of range (R128). -/
def ProtectionBad (r : RawProtection) : Prop :=
  1 < r.mode ∨ 1 < r.side ∨ 6 < r.sizeCode ∨ 1 < r.complement ∨ 1 < r.storedGuard

theorem protectModeOf_eq (n : Nat) :
    protectModeOf n = if 1 < n then none else some (if n = 0 then .range else .individual) := by
  match n with
  | 0 | 1 => rfl
  | n + 2 => simp [protectModeOf]

theorem sideOf_eq (n : Nat) : sideOf n = if 1 < n then none else some (if n = 0 then .low else .high) := by
  match n with
  | 0 | 1 => rfl
  | n + 2 => simp [sideOf]

theorem storedGuardOf_eq (n : Nat) :
    storedGuardOf n = if 1 < n then none else some (if n = 0 then .opened else .guarded) := by
  match n with
  | 0 | 1 => rfl
  | n + 2 => simp [storedGuardOf]

theorem protectionOf_of_bad {r : RawProtection} (h : ProtectionBad r) : protectionOf r = none := by
  unfold protectionOf
  split
  · rfl
  · rw [protectModeOf_eq, sideOf_eq, flagOf_eq, storedGuardOf_eq]
    unfold ProtectionBad at h
    split
    · rename_i hm hs hc hg
      simp only [ite_eq_right_iff, reduceCtorEq, imp_false, Option.ite_none_left_eq_some] at hm hs hc hg
      omega
    · rfl

/-- The record a PROTECT_SET carries (R121, R181). -/
def RawProtection.carried (r : RawProtection) : Protection :=
  { mode := if r.mode = 0 then .range else .individual, side := if r.side = 0 then .low else .high,
    sizeCode := r.sizeCode, complement := decide (r.complement = 1),
    storedGuard := if r.storedGuard = 0 then .opened else .guarded }

theorem protectionOf_of_good {r : RawProtection} (h : ¬ ProtectionBad r) :
    protectionOf r = some (RawProtection.carried r) := by
  unfold ProtectionBad at h
  unfold protectionOf
  obtain ⟨hm, hs, hz, hc, hg⟩ := by simpa only [not_or] using h
  simp only [if_neg hz, protectModeOf_eq, sideOf_eq, flagOf_eq, storedGuardOf_eq, if_neg hm, if_neg hs, if_neg hc,
    if_neg hg, RawProtection.carried]

theorem protectSetBody_of_good {r : RawProtection} (h : ¬ ProtectionBad r) (s : State) :
    protectSetBody r s =
      guarded
        (fun s =>
          if s.library.operation.isSome then (s, .busy)
          else (startOperation (.protectSet (RawProtection.carried r)) s, .ok)) s := by
  simp only [protectSetBody, protectionOf_of_good h]

/-- Settles O44: the field checks, the guard test, BUSY and the staging, in the order of `protectSetBody`. -/
theorem protectSetIsStaged : Obligations.ProtectSetIsStaged := by
  intro ch m r s hm
  have refused {code : ResultCode} (h : protectSetBody r (s.taking ch) = (s.taking ch, code)) :
      exec (.protectSet ch m r) s = .next (s.refusing ch 0x23 code m) :=
    congrArg Host.Outcome.next (take_ifManager_eq_refusing hm h)
  refine ⟨fun bad => refused ?_, fun good hf => refused ?_, fun good hg hl => refused ?_, fun good pass => ?_⟩
  · simp only [protectSetBody, protectionOf_of_bad bad]
  · rw [protectSetBody_of_good good, guarded_of_not_passes _ (by simp [LibraryProtection.GuardPasses, hf])]
    simp [hf]
  · rw [protectSetBody_of_good good, guarded_of_not_passes _ (by simp [LibraryProtection.GuardPasses, hg, hl])]
    simp [hg]
  · have body := (protectSetBody_of_good good (s.taking ch)).trans (guarded_of_passes _ pass)
    refine ⟨fun busy => refused (body.trans ?_), fun free => ⟨RawProtection.carried r, rfl, rfl, rfl, rfl, rfl, ?_⟩⟩
    · exact if_pos (by simpa [Option.isSome_iff_ne_none] using busy)
    · exact congrArg Host.Outcome.next
        (take_ifManager_eq_answering hm (body.trans (if_neg (by simp [free]))))

end Sys2Proof.Machine
end


section
/-!
PROOFS. The reference and the resets: reference frame events (O45), the qualification of REF (O46), the resets of CHANNEL
and PART scope (O50, O51) and power-on (O52); and what the withdrawal of a channel's claim and fetch leaves.
-/

namespace Sys2Proof.Machine

/-! ### The reference -/

theorem RefCounter.heldBack_iff (r : RefCounter) : r.heldBack = true ↔ r.state = .freeRun ∧ r.qualifying = some 8 := by
  rw [RefCounter.heldBack, Bool.and_eq_true, decide_eq_true_eq, decide_eq_true_eq]
  exact .rfl

theorem oneFrameApart_iff (n : Nat) : oneFrameApart n = true ↔ 57344 ≤ n ∧ n ≤ 73728 := by
  rw [oneFrameApart, Bool.and_eq_true, decide_eq_true_eq, decide_eq_true_eq]
  exact .rfl

/-- An event opened with a value of the counter: the schedules in order against the new SFC, the built frames leaving. -/
def State.Opened (s : State) (r : RefCounter) (t : State) : Prop :=
  t = { s with ref := r, aligned := none, channels := t.channels } ∧
    ∀ ch,
      t.chan ch =
        { s.chan ch with
          schedule :=
            { (s.chan ch).schedule with entries := orderEntries (s.ref.sfc + 1) (s.chan ch).schedule.entries }
          output := { (s.chan ch).output with built := none, leaving := (s.chan ch).output.built } }

/-- The frame opened, whatever value the counter then takes. -/
theorem openFrame_opened (s : State) (r : RefCounter) : s.Opened r { openFrame s with ref := r } :=
  ⟨rfl, fun ch => s.chan_mapChans (fun _ c => { c.reorder (s.ref.sfc + 1) with output := c.output.nextFrame }) ch⟩

/-- Settles O45: each row opens the frame and leaves its own value of the counter. -/
theorem referenceFramesAdvanceTheCount : Obligations.ReferenceFramesAdvanceTheCount := by
  intro s
  refine ⟨fun h => ⟨_, congrArg Host.Outcome.next (if_neg ?_), openFrame_opened s _⟩,
    fun h => ⟨_, congrArg Host.Outcome.next (if_pos ?_), openFrame_opened s _⟩, fun h => ?_⟩
  · rwa [RefCounter.heldBack_iff]
  · rwa [RefCounter.heldBack_iff]
  · refine ⟨_, ?_, openFrame_opened s _⟩
    simp only [exec, execRefLoss, h]
    rfl

/-- The qualifying count of a REF frame start, in the words of R149. -/
theorem RefCounter.qualified_eq (r : RefCounter) (n : Nat) :
    r.qualified n =
      if 57344 ≤ n ∧ n ≤ 73728 then
        (if r.qualifying.getD 0 < 8 then r.qualifying.getD 0 + 1 else 8)
      else 1 := by
  have capped (k : Nat) : min (k + 1) Config.qualifyCount = if k < 8 then k + 1 else 8 := by
    unfold Config.qualifyCount
    split <;> omega
  simp only [RefCounter.qualified, capped, oneFrameApart_iff]

section
variable {s : State} {n sinceEvent : Nat}

theorem openFrame_qualifying (s : State) (q : Option Nat) :
    openFrame { s with ref := { s.ref with qualifying := q } } =
      { openFrame s with ref := { (openFrame s).ref with qualifying := q } } := rfl

/-- A start that finds or makes the oscillator held back, half a frame after the last event, takes the event and locks
(R149). -/
theorem qualifyStart_of_locks (hf : s.ref.state = .freeRun) (h : s.ref.qualified n = 8 ∨ s.ref.qualifying = some 8)
    (he : 32768 ≤ sinceEvent) : qualifyStart n sinceEvent s = { openFrame s with ref := (openFrame s).ref.lock } := by
  have held :
      s.ref.heldBack = true ∨
        RefCounter.heldBack { s.ref with qualifying := some (s.ref.qualified n) } = true := by
    rw [RefCounter.heldBack_iff, RefCounter.heldBack_iff]
    rcases h with h | h
    · exact .inr ⟨hf, congrArg some h⟩
    · exact .inl ⟨hf, h⟩
  exact if_pos ⟨held, he⟩

theorem qualifyStart_of_counts (h : (s.ref.qualified n < 8 ∧ s.ref.qualifying ≠ some 8) ∨ sinceEvent < 32768) :
    qualifyStart n sinceEvent s = { s with ref := { s.ref with qualifying := some (s.ref.qualified n) } } := by
  refine if_neg ?_
  rintro ⟨held, he⟩
  rw [RefCounter.heldBack_iff, RefCounter.heldBack_iff] at held
  rcases h with ⟨count, none⟩ | short
  · rcases held with ⟨-, held⟩ | ⟨-, held⟩
    · exact none held
    · exact count.ne (Option.some.inj held)
  · exact absurd he (not_le.2 short)

end

/-- Settles O46: in FREE_RUN by the rate, the count and the time since the last event; in LOCKED by the window alone. -/
theorem referenceIsQualified : Obligations.ReferenceIsQualified := by
  intro start sinceEvent s
  dsimp only
  rw [← s.ref.qualified_eq]
  refine ⟨fun hf => ⟨fun hr => ⟨fun h he => ?_, fun h => ?_⟩, fun hr => ?_, fun hq he => ?_, fun h => ?_⟩,
    fun hl => ⟨fun hn => ?_, fun hn => ?_, ?_⟩⟩
  · simp only [exec, execRefFrameStart, hf, if_pos hr, qualifyStart_of_locks hf h he]
    rfl
  · simp only [exec, execRefFrameStart, hf, if_pos hr, qualifyStart_of_counts h]
  · simp only [exec, execRefFrameStart, hf, if_neg hr]
  · have held : s.ref.heldBack = true := (RefCounter.heldBack_iff _).2 ⟨hf, hq⟩
    simp only [exec, execRefQualifyMiss, hf,
      if_pos (show s.ref.heldBack = true ∧ Config.frameTicks ≤ sinceEvent from ⟨held, he⟩)]
    rfl
  · have open' : ¬ (s.ref.heldBack = true ∧ Config.frameTicks ≤ sinceEvent) := by
      rintro ⟨held, he⟩
      rcases h with h | h
      · exact h ((RefCounter.heldBack_iff _).1 held).2
      · exact absurd he (not_le.2 h)
    simp only [exec, execRefQualifyMiss, hf, if_neg open']
  · simp only [exec, execRefFrameStart, hl, if_pos ((oneFrameApart_iff _).2 hn)]
  · simp only [exec, execRefFrameStart, hl, if_neg (fun h => hn ((oneFrameApart_iff _).1 h))]
  · simp only [exec, execRefQualifyMiss, hl]

/-! ### A claim and a fetch withdrawn -/

/-- A channel that does not wait stands through a grant test (R92). -/
theorem grantTest_stands {s : State} {ch : Channel} (h : ch ∉ s.pool.queue) :
    State.ChannelStands ch s (grantTest s) :=
  (standsOrGranted_grantTest s ch).resolve_right fun granted => h granted.1

/-- The channel's claim and its fetch have left the part-wide blocks, and nothing else has changed but for a grant (R95,
R96, R116). -/
structure State.Withdrawn (ch : Channel) (s t : State) : Prop where
  kept : State.OthersKept ch s t
  claim : t.pool.records.get ch = Request.none
  leftQueue : ch ∉ t.pool.queue
  leftFetches : ∀ f ∈ t.library.fetchQueue ++ t.library.setAside, f.channel ≠ ch
  chan : t.chan ch = { s.chan ch with fetch := .none }

theorem releaseClaim_stands (ch : Channel) (s : State) :
    State.ChannelStands ch { s with pool := (s.pool.leaveQueue ch).setRecord ch .none } (releaseClaim ch s) :=
  grantTest_stands (by simp)

theorem withdrawn (ch : Channel) (s : State) : State.Withdrawn ch s (withdrawFetch ch (releaseClaim ch s)) := by
  obtain ⟨chan, claim, queue⟩ := releaseClaim_stands ch s
  refine ⟨(State.OthersKept.releaseClaim ch s).trans (.withdrawFetch ch _), ?_, fun h => ?_, fun f hf => ?_, ?_⟩
  · exact claim.trans (PerChannel.get_set_same ..)
  · simpa using queue.1 h
  · have out : f.channel ≠ ch := by
      rcases List.mem_append.1 hf with hf | hf <;> exact of_decide_eq_true (List.mem_filter.1 hf).2
    exact out
  · have left : (withdrawFetch ch (releaseClaim ch s)).chan ch =
        { (releaseClaim ch s).chan ch with fetch := .none } := State.chan_modChan_same ..
    rw [left, chan]
    rfl

/-! ### The resets -/

theorem resetBody_channel {ch : Channel} {a : ResetArm} (ha : a.scope = .channel) (s : State) :
    resetBody ch (some a) 0 s = (channelReset ch s, .ok) := by
  simp [resetBody, scopeOf, ha]

theorem resetBody_part {ch : Channel} {a : ResetArm} (ha : a.scope = .part) {s : State}
    (hm : s.management.get ch = true) : resetBody ch (some a) 1 s = (partReset s, .ok) := by
  simp [resetBody, scopeOf, ha, hm]

theorem exec_reset {ch : Channel} {m : Match} {a : ResetArm} {scope : Nat} {s t : State}
    (h : (s.chan ch).parser.arm = some a) (hb : resetBody ch (some a) scope (s.taking ch) = (t, .ok)) :
    exec (.reset ch m scope) s = .next (t.answering ch 0x10 .ok m) :=
  congrArg Host.Outcome.next (take_eq_answering (by rwa [h]))

/-- Settles O50: the channel's blocks are reset, then its claim and its fetch withdrawn. -/
theorem channelResetClearsTheChannel : Obligations.ChannelResetClearsTheChannel := by
  intro ch m a s h ha
  have row := exec_reset (m := m) h (resetBody_channel ha (s.taking ch))
  obtain ⟨-, claim, queue, fetches, chan⟩ :=
    withdrawn ch ((s.taking ch).modChan ch fun c => c.resetBlocks c.parser.afterChannelReset)
  refine ⟨_, row, channelCommandsStayInTheirChannel ch m (.reset 0) s _ rfl row, claim, queue, fetches, ?_⟩
  have reset : ((channelReset ch (s.taking ch)).answering ch 0x10 .ok m).chan ch =
      { (channelReset ch (s.taking ch)).chan ch with
        reporter := ((channelReset ch (s.taking ch)).chan ch).reporter.append { kind := 0x10, code := .ok, how := m } } :=
    State.chan_modChan_same ..
  have blocks : (channelReset ch (s.taking ch)).chan ch =
      { ((s.taking ch).chan ch).resetBlocks ((s.taking ch).chan ch).parser.afterChannelReset with fetch := .none } := by
    rw [← State.chan_modChan_same (s.taking ch) ch fun c => c.resetBlocks c.parser.afterChannelReset]
    exact chan
  rw [reset, blocks]
  simp only [State.taking, State.modParser, State.chan_modChan_same]
  rfl

theorem Library.storedSlot_afterReset (l : Library) (i : SlotIndex) :
    (l.slotsAfterReset).get i = if l.storedSlot i = .underOperation then .invalid else l.storedSlot i := by
  have slot : (l.slotsAfterReset).get i = (l.storedSlot i).afterPowerOn :=
    storedSlot_slotsAfterReset l i (.replicate 8 none) [] [] none false false
  rw [slot]
  cases l.storedSlot i <;> simp [StoredSlot.afterPowerOn]

theorem volatile_blank (j : Fin 8) : (Vector.replicate 8 (none : Option Template)).get j = none := by
  simp [Vector.get]

/-- STORE_FAIL after a part reset (R120). -/
theorem Library.afterPartReset_storeFail (l : Library) :
    l.afterPartReset.storeFail = true ↔ l.storeFail = true ∨ ∃ fl i, l.operation = some fl ∧ fl.op.slot = some i := by
  have storing (op : Operation) : op.storing = true ↔ ∃ i, op.slot = some i := by
    cases op <;> simp [Operation.storing, Operation.slot]
  simp only [Library.afterPartReset, Bool.or_eq_true]
  cases l.operation with
  | none => simp
  | some fl => simp [storing]

/-- Settles O51: each part-wide block takes its reset value, and each channel its own, with the answer in the list that
the reset emptied. -/
theorem partResetClearsThePart : Obligations.PartResetClearsThePart := by
  intro ch m a s h ha hm
  refine ⟨_, exec_reset h (resetBody_part ha (by rwa [s.taking_management])), rfl, rfl, rfl, rfl, rfl, rfl, rfl,
    s.library.storedSlot_afterReset, volatile_blank, rfl, rfl, rfl, rfl, s.library.afterPartReset_storeFail,
    fun c => ?_⟩
  have blocks : (partReset (s.taking ch)).chan c =
      ((s.taking ch).chan c).resetBlocks (((s.taking ch).chan c).parser.afterPartReset c) := State.chan_mapChans ..
  by_cases hc : c = ch
  · subst hc
    have own : ((partReset (s.taking c)).answering c 0x10 .ok m).chan c =
        { (partReset (s.taking c)).chan c with
          reporter := ((partReset (s.taking c)).chan c).reporter.append { kind := 0x10, code := .ok, how := m } } :=
      State.chan_modChan_same ..
    rw [own, blocks, if_pos rfl]
    simp only [State.taking, State.modParser, State.chan_modChan_same]
    rfl
  · rw [State.answering, State.modReporter_chan_ne _ hc, blocks, State.taking, State.modParser_chan_ne _ hc, if_neg hc]
    rfl

/-- Settles O52: every block takes its power-on value. -/
theorem powerOnStartsThePart : Obligations.PowerOnStartsThePart := by
  intro frs1 frs0 s
  refine ⟨_, rfl, ?_, fun c => ?_, rfl, s.library.storedSlot_afterReset, volatile_blank, rfl, rfl, rfl, rfl, rfl, ?_,
    rfl, rfl, rfl, fun c => ?_⟩
  · cases frs1 <;> cases frs0 <;> rfl
  · cases c <;> exact ⟨rfl, rfl, rfl⟩
  · cases hg : s.protection.record.storedGuard <;>
      simp [powerOn, LibraryProtection.afterPowerOn, StoredGuard.toGuard, hg]
  · cases c <;> rfl

end Sys2Proof.Machine
end


section
/-!
PROOFS. The inserts of a schedule (O17, O18), and the end of a junction before its arm test, with ABORT (O23).
-/

namespace Sys2Proof.Machine

/-! ### The fields of an insert -/

theorem endActionOf_code (a : EndAction) : endActionOf a.code = some a := by cases a <;> rfl

theorem endActionOf_of_above {n : Nat} (h : 1 < n) : endActionOf n = none := by
  match n with
  | 0 | 1 => omega
  | n + 2 => rfl

theorem exists_bank_code {n : Nat} (h : n ≤ 1) : ∃ b : BankId, n = b.code := by
  match n with
  | 0 => exact ⟨.bank0, rfl⟩
  | 1 => exact ⟨.bank1, rfl⟩
  | n + 2 => omega

theorem exists_endAction_code {n : Nat} (h : n ≤ 1) : ∃ a : EndAction, n = a.code := by
  match n with
  | 0 => exact ⟨.restore, rfl⟩
  | 1 => exact ⟨.takeover, rfl⟩
  | n + 2 => omega

theorem watchOf_of_ne {o : Option Nat} (h : o ≠ some 0) : watchOf o = some (o.map fun w => min w 250) := by
  match o with
  | none => rfl
  | some 0 => exact absurd rfl h
  | some (w + 1) => rfl

section
variable {start : FrameValue} {late : Bool} {l : Nat} {f : InsertFields}

theorem entryOf_of_fields {b : BankId} {a : EndAction} (hs : f.slot ≤ 40) (hb : f.firstBank = b.code)
    (ha : f.endAction = a.code) (hw : f.watch ≠ some 0) :
    entryOf start late l f = some (insertedEntry f start b a late l) := by
  simp only [entryOf, if_neg hs.not_gt, hb, bankOf_code, ha, endActionOf_code, watchOf_of_ne hw, insertedEntry]

theorem entryOf_of_bad (h : InsertFieldsBad f) : entryOf start late l f = none := by
  unfold entryOf
  split
  · rfl
  · rename_i hs
    rcases h with h | h | h | h
    · exact absurd h hs
    · rw [bankOf_of_above h]
    · rw [endActionOf_of_above h]
      split <;> simp_all
    · rw [h]
      split <;> simp_all [watchOf]

/-- Fields that are not out of range make an entry with the insert's start frame (R2, R3). -/
theorem entryOf_of_good (h : ¬ InsertFieldsBad f) :
    ∃ e, entryOf start late l f = some e ∧ e.start = start := by
  simp only [InsertFieldsBad, not_or] at h
  obtain ⟨hs, hb, ha, hw⟩ := h
  obtain ⟨b, hb⟩ := exists_bank_code (not_lt.1 hb)
  obtain ⟨a, ha⟩ := exists_endAction_code (not_lt.1 ha)
  exact ⟨_, entryOf_of_fields (not_lt.1 hs) hb ha hw, rfl⟩

end

theorem conflicts_iff (c : ChannelState) (start : FrameValue) : conflicts c start = true ↔ MeetsArmedStart c start := by
  unfold conflicts MeetsArmedStart
  split
  · rename_i hs hr
    simp [hs, hr]
  · rename_i h
    constructor
    · nofun
    · rintro ⟨hs, r, hr, -⟩
      exact absurd hr (h r hs)

/-! ### The tests of an insert after its own first step -/

section
variable {s : State} {ch : Channel} {e : Entry}

theorem placeEntry_of_conflict (h : MeetsArmedStart (s.chan ch) e.start) : placeEntry ch e s = (s, .conflict) :=
  if_pos ((conflicts_iff _ _).2 h)

theorem placeEntry_of_held (h : ¬ MeetsArmedStart (s.chan ch) e.start)
    (hh : ∃ f ∈ (s.chan ch).schedule.entries, f.start = e.start) : placeEntry ch e s = (s, .duplicate) := by
  rw [← conflicts_iff] at h
  exact (if_neg h).trans (if_pos (by simpa using hh))

theorem placeEntry_of_full (h : ¬ MeetsArmedStart (s.chan ch) e.start)
    (hh : ¬ ∃ f ∈ (s.chan ch).schedule.entries, f.start = e.start) (hf : 16 ≤ (s.chan ch).schedule.entries.length) :
    placeEntry ch e s = (s, .full) := by
  rw [← conflicts_iff] at h
  exact (if_neg h).trans ((if_neg (by simpa using hh)).trans (if_pos hf))

/-- An insert that passes: the entry in its place, LATE_TAKEN for a late one, the arm test (R5, R10, R11). -/
theorem placeEntry_of_room (h : ¬ MeetsArmedStart (s.chan ch) e.start)
    (hh : ∀ f ∈ (s.chan ch).schedule.entries, f.start ≠ e.start) (hf : (s.chan ch).schedule.entries.length < 16) :
    placeEntry ch e s =
      (armTest ch (if e.late then (s.inserted ch e).raise ch .lateTaken else s.inserted ch e), .ok) := by
  rw [← conflicts_iff] at h
  refine (if_neg h).trans ((if_neg (by simpa using hh)).trans ((if_neg hf.not_ge).trans ?_))
  cases hl : e.late with
  | false => simp only [Reporter.raiseIf_false, Bool.false_eq_true, if_false]; rfl
  | true =>
    simp only [State.inserted, State.raise, State.modReporter, State.modChan_modChan, if_true, Reporter.raiseIf_true]

end

/-! ### SCHEDULE and CUE -/

section
variable {s : State} {ch : Channel} {start : FrameValue} {f : InsertFields} {e : Entry} {offset : Nat}

theorem scheduleBody_of_bad (h : InsertFieldsBad f) : scheduleBody ch start f s = (s, .badField) := by
  simp only [scheduleBody, entryOf_of_bad h]

theorem scheduleBody_of_onTime (ho : ahead start s.ref.sfc = true ∨ start = s.ref.sfc)
    (he : entryOf start false 0 f = some e) : scheduleBody ch start f s = placeEntry ch e s := by
  have onTime : (ahead start s.ref.sfc || decide (start = s.ref.sfc)) = true := by simpa using ho
  simp [scheduleBody, onTime, he]

theorem scheduleBody_of_passed (hp : ahead start s.ref.sfc = false) (hn : start ≠ s.ref.sfc)
    (he : entryOf start true (s.ref.sfc - start).toNat f = some e) :
    scheduleBody ch start f s =
      if (s.chan ch).schedule.tolerance < (s.ref.sfc - start).toNat then (s, .late) else placeEntry ch e s := by
  have passed : (ahead start s.ref.sfc || decide (start = s.ref.sfc)) = false := by simp [hp, hn]
  simp only [scheduleBody, passed, he, Bool.not_false, Bool.false_eq_true, if_false, Bool.true_and,
    decide_eq_true_eq]

theorem cueBody_of_bad (h : InsertFieldsBad f ∨ 1000 < offset) : cueBody ch offset f s = (s, .badField) := by
  unfold cueBody
  split
  · rfl
  · rename_i ho
    rw [entryOf_of_bad (h.resolve_right ho)]

theorem cueBody_of_good (ho : offset ≤ 1000)
    (he : entryOf (s.ref.sfc + BitVec.ofNat 32 offset) false 0 f = some e) :
    cueBody ch offset f s = placeEntry ch e s := by
  simp only [cueBody, if_neg (show ¬ Config.maxCueOffset < offset from ho.not_gt), he]

end

theorem meetsArmedStart_taking {s : State} {ch : Channel} {start : FrameValue} :
    MeetsArmedStart ((s.taking ch).chan ch) start ↔ MeetsArmedStart (s.chan ch) start := by
  simp only [MeetsArmedStart, State.taking_chan_engine]

/-- Settles O17: each accepted form makes its entry, which passes the tests of `placeEntry`. -/
theorem insertsAreAccepted : Obligations.InsertsAreAccepted := by
  intro ch m start offset f b a s hs hb ha hw hm hd hf
  have fields (late : Bool) (l : Nat) := entryOf_of_fields (start := start) (late := late) (l := l) hs hb ha hw
  have placed (late : Bool) (l : Nat) := placeEntry_of_room (s := s.taking ch) (ch := ch)
    (e := insertedEntry f start b a late l) (meetsArmedStart_taking.not.2 hm) (by rwa [s.taking_chan_schedule])
    (by rwa [s.taking_chan_schedule])
  refine ⟨fun ho => congrArg Host.Outcome.next (take_eq_answering ?_), fun hp hn hl =>
    congrArg Host.Outcome.next (take_eq_answering ?_), fun ho hst => congrArg Host.Outcome.next (take_eq_answering ?_)⟩
  · exact (scheduleBody_of_onTime (s := s.taking ch) ho (fields false 0)).trans (placed false 0)
  · refine (scheduleBody_of_passed (s := s.taking ch) hp hn (fields true _)).trans ((if_neg ?_).trans (placed true _))
    rw [s.taking_chan_schedule]
    exact hl.not_gt
  · subst hst
    exact (cueBody_of_good (s := s.taking ch) ho (fields false 0)).trans (placed false 0)

/-- Settles O18: the field checks, then the lateness of a SCHEDULE, then the tests of `placeEntry`. -/
theorem insertsAreRefusedInOrder : Obligations.InsertsAreRefusedInOrder := by
  intro ch m start offset f s
  have conflict {e : Entry} (he : e.start = start) (h : MeetsArmedStart (s.chan ch) start) :
      placeEntry ch e (s.taking ch) = (s.taking ch, .conflict) :=
    placeEntry_of_conflict (meetsArmedStart_taking.2 (he ▸ h))
  have duplicate {e : Entry} (he : e.start = start) (h : ¬ MeetsArmedStart (s.chan ch) start)
      (hh : ∃ x ∈ (s.chan ch).schedule.entries, x.start = start) :
      placeEntry ch e (s.taking ch) = (s.taking ch, .duplicate) :=
    placeEntry_of_held (meetsArmedStart_taking.not.2 (he ▸ h)) (by rwa [s.taking_chan_schedule, he])
  have full {e : Entry} (he : e.start = start) (h : ¬ MeetsArmedStart (s.chan ch) start)
      (hh : ¬ ∃ x ∈ (s.chan ch).schedule.entries, x.start = start) (hf : 16 ≤ (s.chan ch).schedule.entries.length) :
      placeEntry ch e (s.taking ch) = (s.taking ch, .full) :=
    placeEntry_of_full (meetsArmedStart_taking.not.2 (he ▸ h)) (by rwa [s.taking_chan_schedule, he])
      (by rwa [s.taking_chan_schedule])
  refine ⟨fun bad => congrArg Host.Outcome.next (take_eq_refusing (scheduleBody_of_bad bad)), fun good late => ?_,
    fun good inTime => ?_, fun bad => congrArg Host.Outcome.next (take_eq_refusing (cueBody_of_bad bad)),
    fun good ho hst => ?_⟩
  · obtain ⟨⟨hp, hn⟩, hl⟩ := late
    obtain ⟨e, he, -⟩ := entryOf_of_good (start := start) (late := true) (l := (s.ref.sfc - start).toNat) good
    exact congrArg Host.Outcome.next (take_eq_refusing ((scheduleBody_of_passed (s := s.taking ch) hp hn he).trans
      (if_pos (by rwa [s.taking_chan_schedule]))))
  · obtain ⟨e, he, body⟩ :
        ∃ e : Entry, e.start = start ∧ scheduleBody ch start f (s.taking ch) = placeEntry ch e (s.taking ch) := by
      by_cases ho : ahead start s.ref.sfc = true ∨ start = s.ref.sfc
      · obtain ⟨e, he, hst⟩ := entryOf_of_good (start := start) (late := false) (l := 0) good
        exact ⟨e, hst, scheduleBody_of_onTime ho he⟩
      · obtain ⟨hp, hn⟩ := not_or.1 ho
        have hp := Bool.not_eq_true _ ▸ hp
        obtain ⟨e, he, hst⟩ := entryOf_of_good (start := start) (late := true) (l := (s.ref.sfc - start).toNat) good
        refine ⟨e, hst, (scheduleBody_of_passed (s := s.taking ch) hp hn he).trans (if_neg fun h => inTime ⟨⟨hp, hn⟩, ?_⟩)⟩
        rwa [s.taking_chan_schedule] at h
    exact ⟨fun h => congrArg Host.Outcome.next (take_eq_refusing (body.trans (conflict he h))),
      fun h hh => congrArg Host.Outcome.next (take_eq_refusing (body.trans (duplicate he h hh))),
      fun h hh hf => congrArg Host.Outcome.next (take_eq_refusing (body.trans (full he h hh hf)))⟩
  · subst hst
    obtain ⟨e, he, hst⟩ := entryOf_of_good (late := false) (l := 0) good
    have body : cueBody ch offset f (s.taking ch) = placeEntry ch e (s.taking ch) := cueBody_of_good ho he
    exact ⟨fun h => congrArg Host.Outcome.next (take_eq_refusing (body.trans (conflict hst h))),
      fun h hh => congrArg Host.Outcome.next (take_eq_refusing (body.trans (duplicate hst h hh))),
      fun h hh hf => congrArg Host.Outcome.next (take_eq_refusing (body.trans (full hst h hh hf)))⟩

/-! ### The end of a junction before its arm test -/

/-- A junction ended, before the arm test (R45). -/
def State.ended (s : State) (ch : Channel) (lists : ChannelState → ChannelState) (l : LastJunction) : State :=
  (withdrawFetch ch (releaseClaim ch s)).modChan ch (·.afterEnd lists l)

theorem endWith_eq {s : State} {ch : Channel} {r : JunctionRecord} (o : JunctionOutcome)
    (lists : ChannelState → ChannelState) (h : (s.chan ch).engine.record = some r) :
    endWith ch o lists s = armTest ch (s.ended ch lists (r.last o)) := by
  simp only [endWith, h]
  rfl

/-- What a junction end leaves of its channel but for the lists (R45, R46). -/
theorem State.ended_chan (s : State) (ch : Channel) (lists : ChannelState → ChannelState) (l : LastJunction) :
    (s.ended ch lists l).chan ch =
      lists
        { s.chan ch with
          engine := .idle, tally := false, fetch := .none
          composer := { (s.chan ch).composer with look := .outside }
          reporter := (s.chan ch).reporter.record l } := by
  rw [State.ended, State.chan_modChan_same, (withdrawn ch s).chan]
  rfl

/-- The lists of a junction end change the promo list and the load context alone (R85). -/
def ListsOnly (lists : ChannelState → ChannelState) : Prop :=
  ∀ c, ∃ p q, lists c = { c with promo := p, parser := q }

theorem spendBank_listsOnly : ListsOnly ChannelState.spendBank := fun c => ⟨_, c.parser, rfl⟩

theorem emptyBanks_listsOnly : ListsOnly ChannelState.emptyBanks := fun _ => ⟨_, _, rfl⟩

theorem State.ended_junctionEnded (s : State) (ch : Channel) {lists : ChannelState → ChannelState} (h : ListsOnly lists)
    (l : LastJunction) : State.JunctionEnded ch s (s.ended ch lists l) l := by
  obtain ⟨kept, claim, queue, fetches, -⟩ := withdrawn ch s
  obtain ⟨p, q, hl⟩ := h
    { s.chan ch with
      engine := .idle, tally := false, fetch := .none
      composer := { (s.chan ch).composer with look := .outside }
      reporter := (s.chan ch).reporter.record l }
  have chan := (s.ended_chan ch lists l).trans hl
  exact
    { kept := kept.trans (.modChan ch _ _), claim := claim, leftQueue := queue, leftFetches := fetches
      fetch := by rw [chan], engine := by rw [chan], tally := by rw [chan], composer := by rw [chan]
      schedule := by rw [chan], output := by rw [chan], record := by rw [chan]; rfl
      results := by rw [chan]; rfl, omitted := by rw [chan]; rfl, readback := by rw [chan]; rfl }

theorem State.ended_flags (s : State) (ch : Channel) {lists : ChannelState → ChannelState} (h : ListsOnly lists)
    (l : LastJunction) : ((s.ended ch lists l).chan ch).reporter.flags = (s.chan ch).reporter.flags := by
  rw [s.ended_chan]
  obtain ⟨p, q, hl⟩ := h _
  rw [hl]
  rfl

/-- A junction ended from a state reached from another by a change of the channel alone that a junction end undoes. -/
theorem State.JunctionEnded.of_kept {ch : Channel} {s t u : State} {l : LastJunction}
    (h : State.JunctionEnded ch t u l) (hk : State.OthersKept ch s t)
    (composer : { (t.chan ch).composer with look := .outside } = { (s.chan ch).composer with look := .outside })
    (schedule : (t.chan ch).schedule = (s.chan ch).schedule) (output : (t.chan ch).output = (s.chan ch).output)
    (results : (t.chan ch).reporter.results = (s.chan ch).reporter.results)
    (omitted : (t.chan ch).reporter.omitted = (s.chan ch).reporter.omitted)
    (readback : (t.chan ch).reporter.readback = (s.chan ch).reporter.readback) : State.JunctionEnded ch s u l :=
  { h with
    kept := hk.trans h.kept, composer := h.composer.trans composer, schedule := h.schedule.trans schedule
    output := h.output.trans output, results := h.results.trans results, omitted := h.omitted.trans omitted
    readback := h.readback.trans readback }

/-! ### ABORT -/

theorem abortBody_of_idle {ch : Channel} {s : State} (h : (s.chan ch).engine.state = .idle) :
    abortBody ch s = (s, .wrongState) := if_pos h

theorem abortBody_of_record {ch : Channel} {s : State} {r : JunctionRecord} (h : (s.chan ch).engine.state ≠ .idle)
    (hr : (s.chan ch).engine.record = some r) :
    abortBody ch s =
      (armTest ch
        ((s.modChan ch (·.aborting)).ended ch ChannelState.emptyBanks (r.outcome .aborted (some .abort))), .ok) := by
  have record : ((s.modChan ch (·.aborting)).chan ch).engine.record = some { r with endCause := some .abort } := by
    simp [ChannelState.aborting, Engine.takeCause, hr]
  rw [abortBody, if_neg h, endWith_eq _ _ record]
  rfl

/-- Settles O23: ABORT records its cause and ends the junction with both banks EMPTY. -/
theorem abortWithdrawsTheJunction : Obligations.AbortWithdrawsTheJunction := by
  intro ch m s
  refine ⟨fun h => congrArg Host.Outcome.next (take_eq_refusing (abortBody_of_idle (by rwa [s.taking_chan_engine]))),
    fun r h hr => ?_⟩
  rw [← s.taking_chan_engine ch] at h hr
  have own : ((s.taking ch).modChan ch (·.aborting)).chan ch =
      { s.chan ch with
        engine := (s.chan ch).engine.takeCause .abort, parser := { (s.chan ch).parser with arm := none } } := by
    simp [State.taking, State.modParser, ChannelState.aborting]
  have kept : State.OthersKept ch s ((s.taking ch).modChan ch (·.aborting)) :=
    (State.OthersKept.modParser ch _ s).trans (.modChan ch _ _)
  refine ⟨_, congrArg Host.Outcome.next (take_eq_answering (abortBody_of_record h hr)),
    (State.ended_junctionEnded _ ch emptyBanks_listsOnly _).of_kept kept ?_ ?_ ?_ ?_ ?_ ?_, ?_, ?_, ?_⟩
  · rw [own]
  · rw [own]
  · rw [own]
  · rw [own]
  · rw [own]
  · rw [own]
  · rw [State.ended_flags _ ch emptyBanks_listsOnly, own]
  · rw [State.ended_chan]
    rfl
  · rw [State.ended_chan, own]
    rfl

end Sys2Proof.Machine
end


section
/-!
PROOFS. The wire formats read back: the payload of every well-formed command parses to it (O4), the words of a control
packet to its payload, and the stages of a packet's handling (O5, O6).
-/

namespace Sys2Proof.Machine

/-! ### Numbers as bytes -/

theorem be16_bytes {n : Nat} (h : fitsHalf n = true) : be16 (n / 256 % 256) (n % 256) = n := by
  have bound := of_decide_eq_true h
  unfold be16
  omega

theorem be32_bytes (v : FrameValue) :
    be32 (v.toNat / 16777216 % 256) (v.toNat / 65536 % 256) (v.toNat / 256 % 256) (v.toNat % 256) = v := by
  have bound := v.isLt
  apply BitVec.eq_of_toNat_eq
  simp only [be32, BitVec.toNat_ofNat]
  omega

/-- A list of payload bytes. -/
def AreBytes (l : List Nat) : Prop := ∀ b ∈ l, b < 256

theorem areBytes_nil : AreBytes [] := nofun

theorem areBytes_cons {b : Nat} {l : List Nat} : AreBytes (b :: l) ↔ b < 256 ∧ AreBytes l := List.forall_mem_cons

theorem areBytes_append {l l' : List Nat} : AreBytes (l ++ l') ↔ AreBytes l ∧ AreBytes l' := List.forall_mem_append

theorem areBytes_bytes16 (n : Nat) : AreBytes (bytes16 n) := by
  simp only [bytes16, areBytes_cons]
  exact ⟨by omega, by omega, areBytes_nil⟩

theorem areBytes_bytes32 (n : Nat) : AreBytes (bytes32 n) := by
  simp only [bytes32, areBytes_cons]
  exact ⟨by omega, by omega, by omega, by omega, areBytes_nil⟩

theorem fitsByte_iff (n : Nat) : fitsByte n = true ↔ n < 256 := decide_eq_true_iff

theorem areBytes_optByte {o : Option Nat} (h : fitsOption fitsByte o = true) : AreBytes (optByte o) := by
  cases o with
  | none => exact areBytes_nil
  | some b => exact areBytes_cons.2 ⟨(fitsByte_iff b).1 h, areBytes_nil⟩

theorem areBytes_optHalf (o : Option Nat) : AreBytes (optHalf o) := by
  cases o with
  | none => exact areBytes_nil
  | some n => exact areBytes_bytes16 n

/-! ### Items -/

theorem takeHalf_optHalf {o : Option Nat} (h : fitsOption fitsHalf o = true) (rest : List Nat) :
    takeHalf o.isSome (optHalf o ++ rest) = some (o, rest) := by
  cases o with
  | none => rfl
  | some n => simp only [Option.isSome_some, takeHalf, if_true, optHalf, bytes16, List.cons_append, be16_bytes h]; rfl

theorem takeByte_optByte (o : Option Nat) (rest : List Nat) :
    takeByte o.isSome (optByte o ++ rest) = some (o, rest) := by
  cases o <;> rfl

/-- The presence byte of an item, bit by bit (R182). -/
theorem presence_testBit (g p r : Option Nat) :
    (presentBit 1 g + presentBit 2 p + presentBit 4 r).testBit 0 = g.isSome ∧
      (presentBit 1 g + presentBit 2 p + presentBit 4 r).testBit 1 = p.isSome ∧
      (presentBit 1 g + presentBit 2 p + presentBit 4 r).testBit 2 = r.isSome := by
  unfold presentBit
  cases g.isSome <;> cases p.isSome <;> cases r.isSome <;> decide

theorem parseItem_itemBytes {i : RawItem} (h : i.wf = true) (rest : List Nat) :
    parseItem (itemBytes i ++ rest) = some (i, rest) := by
  simp only [RawItem.wf, Bool.and_eq_true] at h
  obtain ⟨⟨⟨⟨-, duration⟩, gate⟩, -⟩, -⟩ := h
  obtain ⟨b0, b1, b2⟩ := presence_testBit i.gateLimit i.pgmAudio i.prmAudio
  have bytes : itemBytes i ++ rest =
      i.tag :: i.source :: i.timing :: (presentBit 1 i.gateLimit + presentBit 2 i.pgmAudio + presentBit 4 i.prmAudio) ::
        (i.duration / 256 % 256) :: (i.duration % 256) ::
        (optHalf i.gateLimit ++ (optByte i.pgmAudio ++ (optByte i.prmAudio ++ rest))) := by
    simp [itemBytes, bytes16]
  simp only [bytes, parseItem, b0, b1, b2, takeHalf_optHalf gate, takeByte_optByte, be16_bytes duration]

theorem parseItems_itemBytes {its : List RawItem} (h : ∀ i ∈ its, i.wf = true) :
    parseItems its.length (its.flatMap itemBytes) = some its := by
  induction its with
  | nil => rfl
  | cons i rest ih =>
    rw [List.length_cons, List.flatMap_cons, parseItems, parseItem_itemBytes (h i (.head _))]
    simp only [ih fun j hj => h j (.tail _ hj), Option.map_some]

theorem itemBytes_length (i : RawItem) : (itemBytes i).length ≤ 10 := by
  have half (o : Option Nat) : (optHalf o).length ≤ 2 := by cases o <;> simp [optHalf, bytes16]
  have byte (o : Option Nat) : (optByte o).length ≤ 1 := by cases o <;> simp [optByte]
  have g := half i.gateLimit
  have p := byte i.pgmAudio
  have r := byte i.prmAudio
  simp only [itemBytes, bytes16, List.length_append, List.length_cons, List.length_nil]
  omega

theorem areBytes_itemBytes {i : RawItem} (h : i.wf = true) : AreBytes (itemBytes i) := by
  have presence : presentBit 1 i.gateLimit + presentBit 2 i.pgmAudio + presentBit 4 i.prmAudio < 256 := by
    unfold presentBit
    split <;> split <;> split <;> omega
  simp only [RawItem.wf, Bool.and_eq_true, fitsByte_iff] at h
  obtain ⟨⟨⟨⟨⟨⟨tag, source⟩, timing⟩, -⟩, -⟩, pgm⟩, prm⟩ := h
  simp only [itemBytes, areBytes_append, areBytes_cons]
  exact ⟨⟨⟨⟨⟨tag, source, timing, presence, areBytes_nil⟩, areBytes_bytes16 _⟩, areBytes_optHalf _⟩,
    areBytes_optByte pgm⟩, areBytes_optByte prm⟩

/-! ### Templates -/

/-- The bytes of a template record after its label (R183). -/
def templateTail (t : RawTemplate) : List Nat :=
  rectBytes t.pgmTarget ++ rectBytes t.prmStart ++ rectBytes t.prmTarget ++
    [t.layering, t.mIn, t.mOut, t.easeIn, t.easeOut] ++ colourBytes t.backing ++ [t.borderWidth] ++
    colourBytes t.borderColour ++ [t.pgmAudio, t.prmAudio]

theorem templateBytes_eq (t : RawTemplate) : templateBytes t = labelBytes t.label ++ templateTail t := by
  simp [templateBytes, templateTail]

theorem templateTail_length (t : RawTemplate) : (templateTail t).length = 44 := rfl

/-- The two-byte numbers of a rectangle read back. -/
theorem rect_read {r : Rect} (h : r.wf = true) :
    ({ x := be16 (r.x / 256 % 256) (r.x % 256), y := be16 (r.y / 256 % 256) (r.y % 256),
       w := be16 (r.w / 256 % 256) (r.w % 256), h := be16 (r.h / 256 % 256) (r.h % 256) } : Rect) = r := by
  simp only [Rect.wf, Bool.and_eq_true] at h
  obtain ⟨⟨⟨hx, hy⟩, hw⟩, hh⟩ := h
  rw [be16_bytes hx, be16_bytes hy, be16_bytes hw, be16_bytes hh]

/-- The two-byte numbers of a colour read back. -/
theorem colour_read {c : Colour} (h : c.wf = true) :
    ({ luma := be16 (c.luma / 256 % 256) (c.luma % 256), cb := be16 (c.cb / 256 % 256) (c.cb % 256),
       cr := be16 (c.cr / 256 % 256) (c.cr % 256) } : Colour) = c := by
  simp only [Colour.wf, Bool.and_eq_true] at h
  obtain ⟨⟨hl, hb⟩, hr⟩ := h
  rw [be16_bytes hl, be16_bytes hb, be16_bytes hr]

theorem template_wf_iff (t : RawTemplate) :
    t.wf = true ↔
      labelWf t.label = true ∧ t.pgmTarget.wf = true ∧ t.prmStart.wf = true ∧ t.prmTarget.wf = true ∧
        t.layering < 256 ∧ t.mIn < 256 ∧ t.mOut < 256 ∧ t.easeIn < 256 ∧ t.easeOut < 256 ∧ t.backing.wf = true ∧
        t.borderWidth < 256 ∧ t.borderColour.wf = true ∧ t.pgmAudio < 256 ∧ t.prmAudio < 256 := by
  simp only [RawTemplate.wf, Bool.and_eq_true, and_assoc, fitsByte_iff]

theorem parseTemplateBody_tail {t : RawTemplate} (h : t.wf = true) :
    parseTemplateBody t.label (templateTail t) = some t := by
  obtain ⟨-, pgm, start, target, -, -, -, -, -, backing, -, border, -, -⟩ := (template_wf_iff t).1 h
  unfold parseTemplateBody
  rw [if_pos (templateTail_length t)]
  simp only [templateTail, rectBytes, colourBytes, bytes16, List.cons_append, List.nil_append, rectFrom, colourFrom,
    halfAt, Nat.reduceAdd, List.getD_cons_zero, List.getD_cons_succ, rect_read pgm, rect_read start, rect_read target,
    colour_read backing, colour_read border]

theorem label_bytes {l : List Nat} (h : labelWf (some l) = true) : l.length ≤ 207 ∧ AreBytes l := by
  simp only [labelWf, Bool.and_eq_true, decide_eq_true_eq, List.all_eq_true, fitsByte_iff] at h
  exact h

theorem parseTemplate_templateBytes {t : RawTemplate} (h : t.wf = true) : parseTemplate (templateBytes t) = some t := by
  have body := parseTemplateBody_tail h
  obtain ⟨label, -⟩ := (template_wf_iff t).1 h
  rw [templateBytes_eq]
  cases hl : t.label with
  | none =>
    rw [hl] at body
    exact body
  | some l =>
    rw [hl] at body label
    have short : l.length ≤ 207 := (label_bytes label).1
    simp only [labelBytes, List.cons_append, parseTemplate]
    rw [if_neg (by omega), if_neg (by simp), List.take_left, List.drop_left]
    exact body

theorem areBytes_rect (r : Rect) : AreBytes (rectBytes r) := by
  simp only [rectBytes, areBytes_append, areBytes_bytes16, and_self]

theorem areBytes_colour (c : Colour) : AreBytes (colourBytes c) := by
  simp only [colourBytes, areBytes_append, areBytes_bytes16, and_self]

theorem areBytes_templateBytes {t : RawTemplate} (h : t.wf = true) : AreBytes (templateBytes t) := by
  obtain ⟨label, -, -, -, layering, mIn, mOut, easeIn, easeOut, -, border, -, pgm, prm⟩ := (template_wf_iff t).1 h
  have named : AreBytes (labelBytes t.label) := by
    cases hl : t.label with
    | none => exact areBytes_cons.2 ⟨by decide, areBytes_nil⟩
    | some l =>
      rw [hl] at label
      exact areBytes_cons.2 ⟨by have short := (label_bytes label).1; omega, (label_bytes label).2⟩
  simp only [templateBytes, areBytes_append, areBytes_cons, areBytes_rect, areBytes_colour, areBytes_nil, named,
    layering, mIn, mOut, easeIn, easeOut, border, pgm, prm, and_self]

theorem templateBytes_length {t : RawTemplate} (h : t.wf = true) : (templateBytes t).length ≤ 252 := by
  obtain ⟨label, -⟩ := (template_wf_iff t).1 h
  rw [templateBytes_eq, List.length_append, templateTail_length]
  cases hl : t.label with
  | none => simp [labelBytes]
  | some l =>
    rw [hl] at label
    have short := (label_bytes label).1
    simp only [labelBytes, List.length_cons]
    omega

/-! ### Commands -/

theorem parseSchedule_bytes (start : FrameValue) {f : InsertFields} (h : f.wf = true) :
    parseSchedule (bytes32 start.toNat ++ insertBytes f) = some (.schedule start f) := by
  simp only [InsertFields.wf, Bool.and_eq_true] at h
  obtain ⟨⟨⟨-, credit⟩, -⟩, -⟩ := h
  cases hw : f.watch <;>
    simp only [bytes32, insertBytes, bytes16, hw, optByte, List.cons_append, List.nil_append, parseSchedule,
      be32_bytes, be16_bytes credit] <;> rw [← hw]

theorem parseCue_bytes {offset : Nat} (ho : fitsHalf offset = true) {f : InsertFields} (h : f.wf = true) :
    parseCue (bytes16 offset ++ insertBytes f) = some (.cue offset f) := by
  simp only [InsertFields.wf, Bool.and_eq_true] at h
  obtain ⟨⟨⟨-, credit⟩, -⟩, -⟩ := h
  cases hw : f.watch <;>
    simp only [insertBytes, bytes16, hw, optByte, List.cons_append, List.nil_append, parseCue, be16_bytes ho,
      be16_bytes credit] <;> rw [← hw]

theorem parseFrame_bytes (c : FrameValue → Command) (v : FrameValue) : parseFrame c (bytes32 v.toNat) = some (c v) := by
  simp only [bytes32, parseFrame, be32_bytes]

theorem parseClearEvents_bytes (mask : BitVec 16) : parseClearEvents (bytes16 mask.toNat) = some (.clearEvents mask) := by
  have fits : fitsHalf mask.toNat = true := decide_eq_true mask.isLt
  simp only [bytes16, parseClearEvents, be16_bytes fits, BitVec.ofNat_toNat, BitVec.setWidth_eq]

theorem parseItemsCommand_bytes {its : List RawItem} (h1 : 1 ≤ its.length) (h8 : its.length ≤ 8)
    (h : ∀ i ∈ its, i.wf = true) :
    parseItemsCommand (its.length :: its.flatMap itemBytes) = some (.items its) := by
  simp only [parseItemsCommand, parseItems_itemBytes h, Option.map_some]
  exact if_neg (by omega)

theorem items_wf_iff (its : List RawItem) :
    (decide (1 ≤ its.length) && decide (its.length ≤ 8) && its.all RawItem.wf) = true ↔
      1 ≤ its.length ∧ its.length ≤ 8 ∧ ∀ i ∈ its, i.wf = true := by
  simp only [Bool.and_eq_true, decide_eq_true_eq, List.all_eq_true, and_assoc]

/-- Settles O4: kind by kind, each field is read where it was written. -/
theorem encodedCommandsParse : Obligations.EncodedCommandsParse := by
  intro ch m c h
  cases c with
  | schedule start f => exact parseSchedule_bytes start h
  | cue offset f =>
    obtain ⟨ho, hf⟩ := Bool.and_eq_true_iff.1 h
    exact parseCue_bytes ho hf
  | delete start => exact parseFrame_bytes .delete start
  | items its =>
    obtain ⟨h1, h8, hi⟩ := (items_wf_iff its).1 h
    exact parseItemsCommand_bytes h1 h8 hi
  | clearEvents mask => exact parseClearEvents_bytes mask
  | setTime v => exact parseFrame_bytes .setTime v
  | templateWrite slot t =>
    exact congrArg (Option.map (Command.templateWrite slot)) (parseTemplate_templateBytes (Bool.and_eq_true_iff.1 h).2)
  | setManagement f =>
    have flags : BitVec.ofNat 8 f.toNat = f := by simp
    exact congrArg (fun f => some (Command.setManagement f)) flags
  | _ => rfl

/-! ### The words of a packet -/

theorem wordByte_byteWord {b : Nat} (h : b < 256) : wordByte (byteWord b) = b := by
  have odd : oddOnes b < 2 := Nat.mod_lt _ (by decide)
  simp only [wordByte, byteWord, BitVec.toNat_ofNat]
  omega

theorem map_wordByte_byteWord {l : List Nat} (h : AreBytes l) : (l.map byteWord).map wordByte = l := by
  rw [List.map_map]
  exact (List.map_congr_left fun b hb => wordByte_byteWord (h b hb)).trans (List.map_id l)

theorem wordLow9_checkWord (ws : List Word10) : wordLow9 (checkWord ws) = checkSum ws := by
  have bound : checkSum ws < 512 := Nat.mod_lt _ (by decide)
  simp only [wordLow9, checkWord, BitVec.toNat_ofNat]
  omega

/-- The words the part writes are read back as their payload (R180). -/
theorem checkedPayload_gosmaraWords (id1 id2 : Nat) {payload : List Nat} (h : AreBytes payload)
    (hl : payload.length < 256) : checkedPayload (gosmaraWords id1 id2 payload) = some payload := by
  have count : wordByte (byteWord payload.length) = (payload.map byteWord).length := by
    rw [wordByte_byteWord hl, List.length_map]
  simp only [gosmaraWords, List.cons_append, checkedPayload, count, List.take_left, List.getElem?_concat_length,
    wordLow9_checkWord, if_true, map_wordByte_byteWord h]

theorem classify_gosmaraWords_control (payload : List Nat) : classify (gosmaraWords 0x52 0x21 payload) = .control := by
  have ids : wordByte (byteWord 0x52) = 0x52 ∧ wordByte (byteWord 0x21) = 0x21 := by decide
  simp only [gosmaraWords, classify, if_pos ids]

theorem classify_gosmaraWords_status (payload : List Nat) : classify (gosmaraWords 0x52 0x22 payload) = .status := by
  have control : ¬ (wordByte (byteWord 0x52) = 0x52 ∧ wordByte (byteWord 0x22) = 0x21) := by decide
  have status : wordByte (byteWord 0x52) = 0x52 ∧ wordByte (byteWord 0x22) = 0x22 := by decide
  simp only [gosmaraWords, classify, if_neg control, if_pos status]

theorem insertBytes_bytes {f : InsertFields} (h : f.wf = true) :
    AreBytes (insertBytes f) ∧ (insertBytes f).length ≤ 7 := by
  simp only [InsertFields.wf, Bool.and_eq_true, fitsByte_iff] at h
  obtain ⟨⟨⟨⟨⟨tag, slot⟩, bank⟩, -⟩, act⟩, watch⟩ := h
  have byte : (optByte f.watch).length ≤ 1 := by cases f.watch <;> simp [optByte]
  refine ⟨?_, ?_⟩
  · simp only [insertBytes, areBytes_append, areBytes_cons, areBytes_nil, areBytes_bytes16, areBytes_optByte watch,
      tag, slot, bank, act, and_self]
  · simp only [insertBytes, bytes16, List.length_append, List.length_cons, List.length_nil]
    omega

theorem flatMap_itemBytes {its : List RawItem} (h : ∀ i ∈ its, i.wf = true) :
    AreBytes (its.flatMap itemBytes) ∧ (its.flatMap itemBytes).length ≤ 10 * its.length := by
  induction its with
  | nil => exact ⟨areBytes_nil, Nat.zero_le _⟩
  | cons i rest ih =>
    obtain ⟨bytes, length⟩ := ih fun j hj => h j (.tail _ hj)
    have item := itemBytes_length i
    refine ⟨areBytes_append.2 ⟨areBytes_itemBytes (h i (.head _)), bytes⟩, ?_⟩
    rw [List.flatMap_cons, List.length_append, List.length_cons]
    omega

/-- The bytes of a well-formed command fit a payload whose data count is a byte (R180). -/
theorem commandBytes_fit {ch : Channel} {m : Match} {c : Command} (h : (c.instr ch m).wf = true) :
    AreBytes c.bytes ∧ c.bytes.length ≤ 253 := by
  have short {l : List Nat} (hl : AreBytes l) (hs : l.length ≤ 5) : AreBytes l ∧ l.length ≤ 253 := ⟨hl, by omega⟩
  cases c with
  | schedule start f =>
    obtain ⟨bytes, length⟩ := insertBytes_bytes h
    refine ⟨areBytes_append.2 ⟨areBytes_bytes32 _, bytes⟩, ?_⟩
    simp only [Command.bytes, bytes32, List.length_append, List.length_cons, List.length_nil]
    omega
  | cue offset f =>
    obtain ⟨bytes, length⟩ := insertBytes_bytes (Bool.and_eq_true_iff.1 h).2
    refine ⟨areBytes_append.2 ⟨areBytes_bytes16 _, bytes⟩, ?_⟩
    simp only [Command.bytes, bytes16, List.length_append, List.length_cons, List.length_nil]
    omega
  | delete start => exact short (areBytes_bytes32 _) (by simp [Command.bytes, bytes32])
  | setTime v => exact short (areBytes_bytes32 _) (by simp [Command.bytes, bytes32])
  | clearEvents mask => exact short (areBytes_bytes16 _) (by simp [Command.bytes, bytes16])
  | items its =>
    obtain ⟨h1, h8, hi⟩ := (items_wf_iff its).1 h
    obtain ⟨bytes, length⟩ := flatMap_itemBytes hi
    refine ⟨areBytes_cons.2 ⟨by omega, bytes⟩, ?_⟩
    simp only [Command.bytes, List.length_cons]
    omega
  | templateWrite slot t =>
    obtain ⟨hs, ht⟩ := Bool.and_eq_true_iff.1 h
    have length := templateBytes_length ht
    refine ⟨areBytes_cons.2 ⟨(fitsByte_iff _).1 hs, areBytes_templateBytes ht⟩, ?_⟩
    simp only [Command.bytes, List.length_cons]
    omega
  | setManagement f => exact short (areBytes_cons.2 ⟨f.isLt, areBytes_nil⟩) (by simp [Command.bytes])
  | setTolerance v => exact short (areBytes_cons.2 ⟨(fitsByte_iff _).1 h, areBytes_nil⟩) (by simp [Command.bytes])
  | resetArm v => exact short (areBytes_cons.2 ⟨(fitsByte_iff _).1 h, areBytes_nil⟩) (by simp [Command.bytes])
  | reset v => exact short (areBytes_cons.2 ⟨(fitsByte_iff _).1 h, areBytes_nil⟩) (by simp [Command.bytes])
  | templateErase v => exact short (areBytes_cons.2 ⟨(fitsByte_iff _).1 h, areBytes_nil⟩) (by simp [Command.bytes])
  | lockSlot v => exact short (areBytes_cons.2 ⟨(fitsByte_iff _).1 h, areBytes_nil⟩) (by simp [Command.bytes])
  | unlockSlot v => exact short (areBytes_cons.2 ⟨(fitsByte_iff _).1 h, areBytes_nil⟩) (by simp [Command.bytes])
  | openBank a b c | readback a b c =>
    simp only [Command.instr, Instr.wf, Bool.and_eq_true, fitsByte_iff] at h
    obtain ⟨⟨h1, h2⟩, h3⟩ := h
    refine short ?_ (by simp [Command.bytes])
    simp only [Command.bytes, areBytes_cons, h1, h2, h3, areBytes_nil, and_self]
  | setUnit u =>
    simp only [Command.instr, Instr.wf, RawUnit.wf, Bool.and_eq_true, fitsByte_iff] at h
    obtain ⟨⟨⟨⟨h1, h2⟩, h3⟩, h4⟩, h5⟩ := h
    refine short ?_ (by simp [Command.bytes])
    simp only [Command.bytes, areBytes_cons, h1, h2, h3, h4, h5, areBytes_nil, and_self]
  | protectSet r =>
    simp only [Command.instr, Instr.wf, RawProtection.wf, Bool.and_eq_true, fitsByte_iff] at h
    obtain ⟨⟨⟨⟨h1, h2⟩, h3⟩, h4⟩, h5⟩ := h
    refine short ?_ (by simp [Command.bytes])
    simp only [Command.bytes, areBytes_cons, h1, h2, h3, h4, h5, areBytes_nil, and_self]
  | clearSchedule | endHold | extend | abort | cancelLoad | lockAll | unlockAll | freeze =>
    exact short areBytes_nil (by decide)

theorem commandKind_lt (c : Command) : c.kind < 256 := by cases c <;> simp [Command.kind]

/-- The payload read back from the words of a well-formed command (R180, R181). -/
theorem checkedPayload_command {ch : Channel} {m : Match} {c : Command} (h : (c.instr ch m).wf = true) {unit : Nat}
    (hu : unit < 256) :
    checkedPayload (gosmaraWords 0x52 0x21 (c.payload unit)) = some (unit :: c.kind :: c.bytes) := by
  obtain ⟨bytes, length⟩ := commandBytes_fit h
  refine checkedPayload_gosmaraWords _ _ (areBytes_cons.2 ⟨hu, areBytes_cons.2 ⟨commandKind_lt c, bytes⟩⟩) ?_
  simp only [Command.payload, List.length_cons]
  omega

/-! ### The stages of a packet -/

section
variable {ch : Channel} {arr : Arrival} {s : State}

theorem packetWork_of_blanking (hv : arr.valid = true) (hb : inBlanking arr.packet = true) :
    packetWork ch arr s = blankingArrival ch arr s :=
  (if_neg (by simp [hv])).trans (if_pos hb)

/-- A packet that is not a control packet passes (R160). -/
theorem blankingArrival_of_other (h : classify arr.packet.words ≠ .control) :
    blankingArrival ch arr s = passPacket ch arr (if arr.first then s.modParser ch (·.newFrame) else s) := by
  unfold blankingArrival
  dsimp only
  split
  · contradiction
  · rfl
  · rfl

theorem blankingArrival_of_control (h : classify arr.packet.words = .control) :
    blankingArrival ch arr s = controlArrival ch arr (if arr.first then s.modParser ch (·.newFrame) else s) := by
  simp only [blankingArrival, h]

/-- Beyond the packet limit a packet passes unread, with PACKET_LIMIT (R161). -/
theorem controlArrival_of_limit (h : 8 ≤ (s.chan ch).parser.packetCount) :
    controlArrival ch arr s = passPacket ch arr (s.raise ch .packetLimit) := if_pos h

/-- The state with one more packet of the frame counted (R161). -/
def State.counted (s : State) (ch : Channel) : State :=
  s.modParser ch ({ · with packetCount := (s.chan ch).parser.packetCount + 1 })

section
variable (h : (s.chan ch).parser.packetCount < 8)
include h

/-- Within the limit a packet is counted; one with a failed check or no match then passes (R161 to R163). -/
theorem controlArrival_of_passes (hh : (s.chan ch).parser.handling arr.packet.words = .passes) :
    controlArrival ch arr s = passPacket ch arr (s.counted ch) := by
  refine (if_neg (show ¬ Config.packetLimit ≤ _ from h.not_ge)).trans ?_
  simp only [hh]
  rfl

theorem controlArrival_of_skipped (hh : (s.chan ch).parser.handling arr.packet.words = .skipped) :
    controlArrival ch arr s =
      passUnlessConsumed ch arr (s.chan ch).parser.addressing.consume (s.counted ch) := by
  refine (if_neg (show ¬ Config.packetLimit ≤ _ from h.not_ge)).trans ?_
  simp only [hh]
  rfl

theorem controlArrival_of_taken {m : Match} {rest : List Nat}
    (hh : (s.chan ch).parser.handling arr.packet.words = .taken m rest) :
    controlArrival ch arr s =
      passUnlessConsumed ch arr (s.chan ch).parser.addressing.consume (takePayload ch m rest (s.counted ch)) := by
  refine (if_neg (show ¬ Config.packetLimit ≤ _ from h.not_ge)).trans ?_
  simp only [hh]
  rfl

end

theorem badCommand_eq (kind : Nat) (m : Match) :
    badCommand ch kind m s =
      ((s.taking ch).modParser ch ({ · with skip := true })).answering ch kind .badCommand m := rfl

end

section
variable {p : Parser} {ws : List Word10} {unit : Nat} {rest : List Nat} {m : Match}

theorem handling_of_unread (h : checkedPayload ws = none ∨ checkedPayload ws = some []) : p.handling ws = .passes := by
  rcases h with h | h <;> simp only [Parser.handling, h]

theorem handling_of_no_match (h : checkedPayload ws = some (unit :: rest)) (hm : p.addressing.matches unit = none) :
    p.handling ws = .passes := by simp only [Parser.handling, h, hm]

theorem handling_of_skip (h : checkedPayload ws = some (unit :: rest)) (hm : p.addressing.matches unit = some m)
    (hs : p.skip = true) : p.handling ws = .skipped := by simp only [Parser.handling, h, hm, hs, if_true]

theorem handling_of_match (h : checkedPayload ws = some (unit :: rest)) (hm : p.addressing.matches unit = some m)
    (hs : p.skip = false) : p.handling ws = .taken m rest := by
  simp only [Parser.handling, h, hm, hs, Bool.false_eq_true, if_false]

end

/-- Settles O6: stage by stage, the first that applies decides. -/
theorem packetStagesInOrder : Obligations.PacketStagesInOrder := by
  intro ch arr s
  refine ⟨fun hv => congrArg Host.Outcome.next (if_pos (by simp [hv])), fun hv hb => congrArg Host.Outcome.next
    ((if_neg (by simp [hv])).trans (if_neg (by simp [hb]))), fun hv hb => ?_⟩
  have row : exec (.packetArrival ch arr) s = .next (blankingArrival ch arr s) :=
    congrArg Host.Outcome.next (packetWork_of_blanking hv hb)
  rw [row]
  refine ⟨fun hc => congrArg Host.Outcome.next (blankingArrival_of_other hc), fun hc => ?_⟩
  rw [blankingArrival_of_control hc]
  refine ⟨fun hl => congrArg Host.Outcome.next (controlArrival_of_limit hl), fun hl => ⟨fun hp => ?_, fun hp => ?_,
    fun unit rest hp => ⟨fun hm => ?_, fun m hm => ⟨fun hs => ?_, fun hs hr => ?_, fun hs kind bs hr hk => ?_⟩⟩⟩⟩ <;>
    refine congrArg Host.Outcome.next ?_
  · exact controlArrival_of_passes hl (handling_of_unread (.inl hp))
  · exact controlArrival_of_passes hl (handling_of_unread (.inr hp))
  · exact controlArrival_of_passes hl (handling_of_no_match hp hm)
  · exact controlArrival_of_skipped hl (handling_of_skip hp hm hs)
  · subst hr
    exact controlArrival_of_taken hl (handling_of_match hp hm hs)
  · subst hr
    have malformed {s : State} : takePayload ch m (kind :: bs) s = badCommand ch kind m s := by
      simp only [takePayload, hk]
    refine (controlArrival_of_taken hl (handling_of_match hp hm hs)).trans ?_
    rw [malformed]
    rfl

/-- Settles O5: a packet of the words of a command is classed, counted, checked and matched, and its payload is the
command. -/
theorem packetsRunTheirCommand : Obligations.PacketsRunTheirCommand := by
  intro ch m c unit arr s hc hu hv hb hw hm hf
  have payload := checkedPayload_command hc hu
  rw [← hw] at payload
  have control : classify arr.packet.words = .control := by
    rw [hw]
    exact classify_gosmaraWords_control _
  have parsed {s : State} : takePayload ch m (c.kind :: c.bytes) s = runCommand ch m c s := by
    simp only [takePayload, encodedCommandsParse ch m c hc]
  refine ⟨_, exec_instr .., ?_⟩
  have row : exec (.packetArrival ch arr) s = .next (blankingArrival ch arr s) :=
    congrArg Host.Outcome.next (packetWork_of_blanking hv hb)
  rw [row, blankingArrival_of_control control]
  refine congrArg Host.Outcome.next ?_
  cases ha : arr.first with
  | false =>
    obtain ⟨count, skip⟩ := hf ha
    simp only [Bool.false_eq_true, if_false]
    rw [controlArrival_of_taken count (handling_of_match payload hm skip), parsed]
    rfl
  | true =>
    have own : ((s.modParser ch (·.newFrame)).chan ch).parser = (s.chan ch).parser.newFrame :=
      State.modParser_chan_parser ..
    have counted : (s.modParser ch (·.newFrame)).counted ch =
        s.modParser ch ({ · with packetCount := 1, skip := false }) := by
      rw [State.counted, own]
      simp only [State.modParser, State.modChan_modChan]
      rfl
    simp only [if_true]
    have limit : ((s.modParser ch (·.newFrame)).chan ch).parser.packetCount < 8 := by
      rw [own]
      exact Nat.zero_lt_succ 7
    have taken : ((s.modParser ch (·.newFrame)).chan ch).parser.handling arr.packet.words =
        .taken m (c.kind :: c.bytes) := by
      rw [own]
      exact handling_of_match payload hm rfl
    rw [controlArrival_of_taken limit taken, parsed, counted, own]
    rfl

end Sys2Proof.Machine
end


section
/-!
PROOFS. The arm test (O20): where the fetch of an armed junction goes, and what its scaler request finds.
-/

namespace Sys2Proof.Machine

section
variable {ch : Channel} {slot n : Nat} {start : FrameValue} {s : State}

/-! ### The fetch -/

theorem fetchArrival_of_operated (h : s.library.operatesOn slot = true) :
    fetchArrival ch slot s =
      ({ s with
        library :=
          { s.library with setAside := s.library.setAside ++ [({ channel := ch, slot := slot } : Fetch)] } }.setFetch ch
        .setAside) := if_pos h

theorem fetchArrival_of_free (h : s.library.operatesOn slot = false)
    (hf : s.library.operation = none ∧ s.library.fetchQueue = []) :
    fetchArrival ch slot s = s.modChan ch (·.served (s.library.content slot)) := by
  have free : s.library.operation.isNone = true ∧ s.library.fetchQueue = [] := ⟨by rw [hf.1]; rfl, hf.2⟩
  exact ((if_neg (by simp [h])).trans (if_pos free)).trans (serveFetch_eq { channel := ch, slot := slot } s)

theorem fetchArrival_of_busy (h : s.library.operatesOn slot = false)
    (hf : ¬ (s.library.operation = none ∧ s.library.fetchQueue = [])) :
    fetchArrival ch slot s =
      ({ s with
        library :=
          { s.library with fetchQueue := s.library.fetchQueue ++ [({ channel := ch, slot := slot } : Fetch)] } }.setFetch ch
        .queued) := by
  have busy : ¬ (s.library.operation.isNone = true ∧ s.library.fetchQueue = []) := by
    rwa [Option.isNone_iff_eq_none]
  exact (if_neg (by simp [h])).trans (if_neg busy)

/-- What the arrival of its fetch leaves of a channel whose record has no template yet (R113, R114). -/
theorem fetchArrival_own {r : JunctionRecord} (hr : (s.chan ch).engine.record = some r) (ht : r.template = none)
    (hb : r.fallbackUsed = false) :
    ∃ template fallbackUsed,
      (fetchArrival ch slot s).chan ch =
        { s.chan ch with
          engine :=
            { (s.chan ch).engine with
              record := some { r with template := template, fallbackUsed := fallbackUsed } }
          fetch := ((fetchArrival ch slot s).chan ch).fetch
          reporter := ((fetchArrival ch slot s).chan ch).reporter } ∧
      if s.library.operatesOn slot then
        ((fetchArrival ch slot s).chan ch).fetch = .setAside ∧ template = none ∧ fallbackUsed = false ∧
          ((fetchArrival ch slot s).chan ch).reporter = (s.chan ch).reporter ∧
          (fetchArrival ch slot s).library.fetchQueue = s.library.fetchQueue ∧
          (fetchArrival ch slot s).library.setAside = s.library.setAside ++ [({ channel := ch, slot := slot } : Fetch)]
      else if s.library.operation = none ∧ s.library.fetchQueue = [] then
        ((fetchArrival ch slot s).chan ch).fetch = .served ∧
          template = some ((s.library.content slot).getD fallbackLayout) ∧
          fallbackUsed = (s.library.content slot).isNone ∧
          ((fetchArrival ch slot s).chan ch).reporter =
            (if (s.library.content slot).isNone then (s.chan ch).reporter.raise .fallbackUsed
            else (s.chan ch).reporter) ∧
          (fetchArrival ch slot s).library = s.library
      else
        ((fetchArrival ch slot s).chan ch).fetch = .queued ∧ template = none ∧ fallbackUsed = false ∧
          ((fetchArrival ch slot s).chan ch).reporter = (s.chan ch).reporter ∧
          (fetchArrival ch slot s).library.setAside = s.library.setAside ∧
          (fetchArrival ch slot s).library.fetchQueue =
            s.library.fetchQueue ++ [({ channel := ch, slot := slot } : Fetch)] := by
  have same : ({ r with template := none, fallbackUsed := false } : JunctionRecord) = r := by
    rw [← ht, ← hb]
  cases ho : s.library.operatesOn slot with
  | true =>
    rw [fetchArrival_of_operated ho]
    refine ⟨none, false, ?_, ?_⟩
    · rw [same, ← hr, State.setFetch, State.chan_modChan_same]
      rfl
    · rw [if_pos rfl]
      exact ⟨State.setFetch_chan_fetch .., rfl, rfl, State.setFetch_chan_reporter .., rfl, rfl⟩
  | false =>
    by_cases hf : s.library.operation = none ∧ s.library.fetchQueue = []
    · rw [fetchArrival_of_free ho hf]
      refine ⟨some ((s.library.content slot).getD fallbackLayout), (s.library.content slot).isNone, ?_, ?_⟩
      · simp [ChannelState.served, Engine.modRecord, hr, hb]
      · rw [if_neg Bool.false_ne_true, if_pos hf]
        refine ⟨by simp [ChannelState.served], rfl, rfl, ?_, rfl⟩
        cases hc : s.library.content slot <;> simp [ChannelState.served, hc, Reporter.raise]
    · rw [fetchArrival_of_busy ho hf]
      refine ⟨none, false, ?_, ?_⟩
      · rw [same, ← hr, State.setFetch, State.chan_modChan_same]
        rfl
      · rw [if_neg Bool.false_ne_true, if_neg hf]
        exact ⟨State.setFetch_chan_fetch .., rfl, rfl, State.setFetch_chan_reporter .., rfl, rfl⟩

/-! ### The scaler request -/

/-- The claim a request leaves: granted in full, or waiting with nothing granted (R90, R92). -/
def Request.Made (q : Request) (n : Nat) (start : FrameValue) : Prop :=
  q = { state := .granted, requested := n, start := start, granted := n } ∨
    n ≠ 0 ∧ q = { state := .waiting, requested := n, start := start, granted := 0 }

/-- What a scaler request leaves of its channel: the record has what the claim was granted (R25, R90, R92). -/
theorem scalerRequest_own {r : JunctionRecord} (hr : (s.chan ch).engine.record = some r) (hg : r.granted = 0) :
    ((scalerRequest ch n start s).pool.records.get ch).Made n start ∧
      (scalerRequest ch n start s).chan ch =
        { s.chan ch with
          engine :=
            { (s.chan ch).engine with
              record :=
                some { r with granted := ((scalerRequest ch n start s).pool.records.get ch).granted } } } := by
  have same : ({ r with granted := 0 } : JunctionRecord) = r := by rw [← hg]
  unfold scalerRequest
  split
  · rename_i hn
    have claim : ((s.pool.setRecord ch { state := .granted, requested := 0, start := start, granted := 0 }).records.get
        ch) = { state := .granted, requested := 0, start := start, granted := 0 } := PerChannel.get_set_same ..
    dsimp only
    rw [claim]
    refine ⟨.inl (by rw [hn]), ?_⟩
    rw [same, ← hr]
    rfl
  · rename_i hn
    dsimp only
    generalize hs : ({ s with
      pool :=
        { s.pool.setRecord ch { state := .waiting, requested := n, start := start, granted := 0 } with
          queue := s.pool.queue ++ [ch] } } : State) = w
    have before : w.pool.records.get ch = { state := .waiting, requested := n, start := start, granted := 0 } := by
      rw [← hs]
      exact PerChannel.get_set_same ..
    have own : w.chan ch = s.chan ch := by rw [← hs]; rfl
    have goal : grantTest { s with
        pool :=
          { s.pool.setRecord ch { state := .waiting, requested := n, start := start, granted := 0 } with
            queue := (s.pool.setRecord ch { state := .waiting, requested := n, start := start, granted := 0 }).queue ++
              [ch] } } = grantTest w := congrArg grantTest hs
    rw [goal]
    rcases standsOrGranted_grantTest w ch with ⟨chan, claim, -⟩ | ⟨-, -, claim, chan⟩
    · rw [claim, chan, before, own]
      refine ⟨.inr ⟨hn, rfl⟩, ?_⟩
      rw [same, ← hr]
    · rw [claim, chan, before, own]
      refine ⟨.inl rfl, ?_⟩
      simp [Engine.modRecord, hr]

theorem grantTest_of_fits (h : s.pool.queue = [ch]) (hf : (s.pool.records.get ch).requested ≤ s.pool.free) :
    grantTest s = s.grantTo ch (s.pool.records.get ch).requested :=
  (grantTest_of_lone h).trans (if_pos hf)

theorem grantTest_of_short (h : s.pool.queue = [ch]) (hf : s.pool.free < (s.pool.records.get ch).requested) :
    grantTest s = s :=
  (grantTest_of_lone h).trans (if_neg hf.not_ge)

/-- With no request waiting, a request is granted exactly when it fits the free scalers (R90, R92). -/
theorem scalerRequest_lone (hq : s.pool.queue = []) (hg : (s.pool.records.get ch).granted = 0) :
    (n ≤ s.pool.free →
        ((scalerRequest ch n start s).pool.records.get ch).state = .granted ∧
          (scalerRequest ch n start s).pool.queue = []) ∧
      (s.pool.free < n →
        ((scalerRequest ch n start s).pool.records.get ch).state = .waiting ∧
          (scalerRequest ch n start s).pool.queue = [ch]) := by
  unfold scalerRequest
  split
  · rename_i hn
    refine ⟨fun _ => ⟨?_, hq⟩, fun h => by omega⟩
    simp
  · rename_i hn
    dsimp only
    have held : (s.pool.setRecord ch { state := .waiting, requested := n, start := start, granted := 0 }).held =
        s.pool.held := Pool.held_setRecord_of_zero hg rfl
    have free : Pool.free { s.pool.setRecord ch { state := .waiting, requested := n, start := start, granted := 0 } with
        queue := s.pool.queue ++ [ch] } = s.pool.free := congrArg (Config.poolSize - ·) held
    have need : (((s.pool.setRecord ch
        { state := .waiting, requested := n, start := start, granted := 0 }).records.get ch).requested) = n := by simp
    refine ⟨fun h => ?_, fun h => ?_⟩
    · rw [grantTest_of_fits (ch := ch)]
      · simp [State.grantTo_pool, hq]
      · simp [hq]
      · exact need.trans_le (h.trans_eq free.symm)
    · rw [grantTest_of_short (ch := ch)]
      · simp [hq]
      · simp [hq]
      · exact (free.trans_lt h).trans_eq need.symm

theorem scalerRequest_library : (scalerRequest ch n start s).library = s.library :=
  (agreesButGrants_scalerRequest ch n start s).library

end

/-! ### The arm test -/

theorem nearEnough_iff (start sfc : FrameValue) :
    nearEnough start sfc = true ↔ ahead start sfc = false ∨ (start - sfc).toNat ≤ 12 := by
  rw [nearEnough, Bool.or_eq_true, Bool.not_eq_true', decide_eq_true_eq]
  exact .rfl

theorem armTest_of_near {ch : Channel} {s : State} {e : Entry} {rest : List Entry}
    (hi : (s.chan ch).engine.state = .idle) (he : (s.chan ch).schedule.entries = e :: rest)
    (hn : nearEnough e.start s.ref.sfc = true) : armTest ch s = armEntry ch e rest s := by
  simp only [armTest, hi, he, hn, if_true]

/-- The state in which an entry has armed, before its fetch and its request (R15, R23). -/
def State.armed (s : State) (ch : Channel) (e : Entry) (rest : List Entry) : State :=
  s.modChan ch fun c =>
    { c.withEngine { c.engine with state := .armed, record := some (.opening e (s.library.need e.slot)) } with
      schedule := { c.schedule with entries := rest } }

theorem armEntry_eq (ch : Channel) (e : Entry) (rest : List Entry) (s : State) :
    armEntry ch e rest s =
      scalerRequest ch (s.library.need e.slot) e.start (fetchArrival ch e.slot (s.armed ch e rest)) := rfl

/-- Settles O20: the armed record, then the fetch by the library's state, then the request by the pool's. -/
theorem armTakesTheFirstEntry : Obligations.ArmTakesTheFirstEntry := by
  intro ch e rest s hi he hn
  have row : exec (.arm ch) s = .next (armEntry ch e rest s) :=
    congrArg Host.Outcome.next (armTest_of_near hi he ((nearEnough_iff _ _).2 hn))
  have kept := State.OthersKept.armTest ch s
  rw [armTest_of_near hi he ((nearEnough_iff _ _).2 hn)] at kept
  have own : (s.armed ch e rest).chan ch = _ := State.chan_modChan_same ..
  have record : ((s.armed ch e rest).chan ch).engine.record = some (.opening e (s.library.need e.slot)) := by
    rw [own]
    rfl
  obtain ⟨template, fallbackUsed, fetched, fetch⟩ := fetchArrival_own (slot := e.slot) record rfl rfl
  have record' := congrArg (fun c : ChannelState => c.engine.record) fetched
  obtain ⟨made, chan⟩ := scalerRequest_own (n := s.library.need e.slot) (start := e.start) record' rfl
  rw [← armEntry_eq] at made chan
  have pool : (fetchArrival ch e.slot (s.armed ch e rest)).pool = s.pool := fetchArrival_pool ..
  refine ⟨_, { JunctionRecord.opening e (s.library.need e.slot) with
    template := template
    fallbackUsed := fallbackUsed
    granted := ((armEntry ch e rest s).pool.records.get ch).granted }, row, kept, ?_, rfl, ?_, ?_, rfl, ?_, fun hq hg => ?_, ?_⟩
  · rw [chan, fetched, own]
    rfl
  · rcases made with h | ⟨-, h⟩ <;> rw [h]
  · rcases made with h | ⟨-, h⟩ <;> rw [h]
  · rcases made with h | ⟨hn, h⟩ <;> rw [h]
    · exact .inl ⟨rfl, rfl⟩
    · exact .inr ⟨rfl, rfl, hn⟩
  · have lone := scalerRequest_lone (n := s.library.need e.slot) (start := e.start) (ch := ch)
      (s := fetchArrival ch e.slot (s.armed ch e rest)) (by rw [pool, hq]) (by rw [pool, hg])
    rw [pool] at lone
    exact lone
  · have fetch' : ((armEntry ch e rest s).chan ch).fetch = ((fetchArrival ch e.slot (s.armed ch e rest)).chan ch).fetch := by
      rw [chan]
    have reporter : ((armEntry ch e rest s).chan ch).reporter =
        ((fetchArrival ch e.slot (s.armed ch e rest)).chan ch).reporter := by rw [chan]
    have library : (armEntry ch e rest s).library = (fetchArrival ch e.slot (s.armed ch e rest)).library :=
      scalerRequest_library
    rw [fetch', reporter, library]
    rw [own] at fetch
    exact fetch

end Sys2Proof.Machine
end


section
/-!
PROOFS. The rows of the engine past the start event (O27, O28, O30): the end causes and the ends of the moves.
-/

namespace Sys2Proof.Machine

/-! ### The end cause of an event -/

theorem Engine.causeAt_of_firstCause {e : Engine} {c : EndCause} (h : FirstCause e c) : e.causeAt = some c := by
  unfold Engine.causeAt
  rcases h with ⟨rfl, marker⟩ | ⟨rfl, marker, credit⟩ | ⟨rfl, marker, credit, watch⟩ | ⟨rfl, marker, credit, watch⟩
  · rw [if_pos marker]
  · rw [if_neg marker, if_pos credit]
  · rw [if_neg marker, if_neg credit, if_pos watch]
  · rw [if_neg (by rw [marker]; decide), if_neg credit, if_neg watch, if_pos marker]

theorem Engine.firstCause_of_causeAt {e : Engine} {c : EndCause} (h : e.causeAt = some c) : FirstCause e c := by
  unfold Engine.causeAt at h
  split at h
  · rename_i marker
    exact .inl ⟨(Option.some.inj h).symm, marker⟩
  · rename_i marker
    split at h
    · rename_i credit
      exact .inr (.inl ⟨(Option.some.inj h).symm, marker, credit⟩)
    · rename_i credit
      split at h
      · rename_i watch
        exact .inr (.inr (.inl ⟨(Option.some.inj h).symm, marker, credit, watch⟩))
      · rename_i watch
        split at h
        · rename_i list
          exact .inr (.inr (.inr ⟨(Option.some.inj h).symm, list, credit, watch⟩))
        · cases h

theorem Engine.firstCause_iff (e : Engine) (c : EndCause) : FirstCause e c ↔ e.causeAt = some c :=
  ⟨Engine.causeAt_of_firstCause, Engine.firstCause_of_causeAt⟩

theorem Engine.causeAt_eq_none {e : Engine} (h : ∀ c, ¬ FirstCause e c) : e.causeAt = none :=
  Option.eq_none_iff_forall_not_mem.2 fun c hc => h c (Engine.firstCause_of_causeAt hc)

section
variable {e : Engine} {r : JunctionRecord} {c : EndCause} {items : Bool}

theorem Engine.work_of_cause {emptyList : Bool} (hs : e.state = .squeeze ∨ e.state = .held)
    (hc : e.causeAt = some c) : e.work items emptyList = e.act c items := by
  rcases hs with hs | hs <;> simp [Engine.work, hs, hc]

theorem Engine.template_of_record (hr : e.record = some r) : e.template = r.template.getD fallbackLayout := by
  simp [Engine.template, hr]

theorem Engine.promoTarget_of_record (hr : e.record = some r) :
    e.promoTarget = if e.degraded then fullFrame else (r.template.getD fallbackLayout).prmTarget := by
  rw [Engine.promoTarget, Engine.template_of_record hr]

theorem Engine.takeCause_of_record (hr : e.record = some r) (c : EndCause) :
    e.takeCause c =
      { e with record := some { r with endCause := some c }, credit := none, watch := none, marker := none } := by
  simp [Engine.takeCause, Engine.modRecord, hr]

theorem Engine.takesOver_iff (hr : e.record = some r) :
    e.takesOver c items = true ↔ c ≠ .listEnd ∧ r.endAction = .takeover ∧ items = true := by
  simp [Engine.takesOver, hr, and_assoc]

theorem Engine.takesOver_of_restores (hr : e.record = some r)
    (h : c = .listEnd ∨ r.endAction = .restore ∨ items = false) : e.takesOver c items = false := by
  rw [← Bool.not_eq_true, Engine.takesOver_iff hr]
  rintro ⟨hc, ha, hi⟩
  rcases h with h | h | h
  · exact hc h
  · rw [h] at ha
    cases ha
  · rw [h] at hi
    cases hi

/-- The release an end cause begins, over a length (R39, R40, R58). -/
theorem Engine.beginRelease_of_record (hr : e.record = some r) (n : Nat) :
    e.beginRelease n =
      { e with
        state := .release, k := 0, m := n
        move := some
          { pgm := some { src := e.pgmRect.getD fullFrame, dst := fullFrame }
            promo :=
              { src := e.promoRect.getD fullFrame
                dst := if e.degraded then fullFrame else (r.template.getD fallbackLayout).prmStart }
            length := n, easing := (r.template.getD fallbackLayout).easeOut }
        pgmRect :=
          some
            (moveRect 0 n (r.template.getD fallbackLayout).easeOut
              { src := e.pgmRect.getD fullFrame, dst := fullFrame })
        promoRect :=
          some
            (moveRect 0 n (r.template.getD fallbackLayout).easeOut
              { src := e.promoRect.getD fullFrame
                dst := if e.degraded then fullFrame else (r.template.getD fallbackLayout).prmStart }) } := by
  rw [← Engine.template_of_record hr]
  rfl

/-- The takeover an end cause begins (R39, R59). -/
theorem Engine.beginTakeover_of_record (hr : e.record = some r) :
    e.beginTakeover =
      { (if (r.template.getD fallbackLayout).mOut = 0 then
          { e with state := .promoFull, k := 0, m := 0, move := none, promoRect := some fullFrame }
        else
          { e with
            state := .takeover, k := 0, m := (r.template.getD fallbackLayout).mOut
            move := some
              { pgm := none, promo := { src := e.promoRect.getD fullFrame, dst := fullFrame },
                length := (r.template.getD fallbackLayout).mOut, easing := (r.template.getD fallbackLayout).easeOut }
            promoRect :=
              some
                (moveRect 0 (r.template.getD fallbackLayout).mOut (r.template.getD fallbackLayout).easeOut
                  { src := e.promoRect.getD fullFrame, dst := fullFrame }) }) with
        pgmRect := none } := by
  unfold Engine.beginTakeover
  rw [Engine.template_of_record hr]
  split <;> rfl

end

/-! ### The junction end of a channel's own work -/

theorem PromoList.endPlay_eq_spent (p : PromoList) : p.endPlay = p.spent := by
  have bank (b : Bank) : b.afterJunction = { b with state := if b.state = .playing then .spent else b.state } := by
    unfold Bank.afterJunction
    split <;> rfl
  rw [PromoList.endPlay, bank, bank]
  rfl

/-- A channel differs from another by its engine, its promo list, its tally and its flags alone. -/
def ChannelState.Worked (c d : ChannelState) : Prop :=
  d =
    { c with
      engine := d.engine, tally := d.tally, promo := d.promo
      reporter := { c.reporter with flags := d.reporter.flags } }

/-- A junction that its channel's own work brings to its end (R45, R46, R85). -/
theorem junctionEnd_of_worked {ch : Channel} {s : State} {c : ChannelState} {r : JunctionRecord}
    (hw : (s.chan ch).Worked c) (hr : c.engine.record = some r) (o : JunctionOutcome) :
    ∃ u, junctionEnd ch o (s.setChan ch c) = armTest ch u ∧ State.JunctionEnded ch s u (r.last o) ∧
      (u.chan ch).reporter.flags = c.reporter.flags ∧ (u.chan ch).promo = c.promo.spent ∧
      (u.chan ch).parser = (s.chan ch).parser := by
  have own : (s.setChan ch c).chan ch = c := State.chan_setChan_same ..
  have kept : State.OthersKept ch s (s.setChan ch c) := State.OthersKept.modChan ch (fun _ => c) s
  refine ⟨_, endWith_eq o _ (by rw [own, hr]),
    (State.ended_junctionEnded _ ch spendBank_listsOnly _).of_kept kept ?_ ?_ ?_ ?_ ?_ ?_, ?_, ?_, ?_⟩
  · rw [own, hw]
  · rw [own, hw]
  · rw [own, hw]
  · rw [own, hw]
  · rw [own, hw]
  · rw [own, hw]
  · rw [State.ended_flags _ ch spendBank_listsOnly, own]
  · rw [State.ended_chan, own, ← PromoList.endPlay_eq_spent]
    rfl
  · rw [State.ended_chan, own, hw]
    rfl

/-! ### The engine's rows -/

theorem finishEnd_goes (ch : Channel) (s : State) : finishEnd ch .goes s = s := rfl

section
variable {ch : Channel} {s : State}

theorem engineWork_of_running (h : (s.chan ch).engine.state ≠ .armed) :
    engineWork ch s =
      finishEnd ch ((s.chan ch).engine.work (s.chan ch).promo.itemsRemain (s.chan ch).emptyList).ending
        (s.modChan ch
          (·.withEngine ((s.chan ch).engine.work (s.chan ch).promo.itemsRemain (s.chan ch).emptyList).engine)) :=
  if_neg h

/-- A row that names an end cause that is present runs the engine's work (R33, R34, R38). -/
theorem exec_of_namesCause {i : Instr} {c : EndCause}
    (hs : (s.chan ch).engine.state = .squeeze ∨ (s.chan ch).engine.state = .held)
    (hc : (s.chan ch).engine.causeAt = some c) (hn : NamesCause ch (s.chan ch).engine i) :
    exec i s = .next (engineWork ch s) := by
  have endable : (s.chan ch).engine.state.endable = true := by rcases hs with h | h <;> rw [h] <;> rfl
  rcases hn with rfl | ⟨rfl, credit⟩ | ⟨rfl, held, watch⟩ <;>
    refine congrArg Host.Outcome.next (if_pos ?_)
  · rw [endable, hc]
    rfl
  · rw [endable, credit]
    rfl
  · rw [watch, decide_eq_true held]
    rfl

theorem exec_namesCause_eq {i : Instr} {c : EndCause}
    (hs : (s.chan ch).engine.state = .squeeze ∨ (s.chan ch).engine.state = .held)
    (hc : FirstCause (s.chan ch).engine c) (hn : NamesCause ch (s.chan ch).engine i) :
    exec i s =
      .next
        (finishEnd ch ((s.chan ch).engine.act c (s.chan ch).promo.itemsRemain).ending
          (s.modChan ch (·.withEngine ((s.chan ch).engine.act c (s.chan ch).promo.itemsRemain).engine))) := by
  have cause := Engine.causeAt_of_firstCause hc
  have running : (s.chan ch).engine.state ≠ .armed := by rcases hs with h | h <;> rw [h] <;> decide
  rw [exec_of_namesCause hs cause hn, engineWork_of_running running, Engine.work_of_cause hs cause]

theorem worked_withEngine (c : ChannelState) (e : Engine) : c.Worked (c.withEngine e) := rfl

end

/-- Settles O27: the cause does not take over, so its length decides between the release and the cut. -/
theorem endCausesRestore : Obligations.EndCausesRestore := by
  intro ch i cause r s c e t0 length home pgm promo hs hr hc hn restores
  have takes : e.takesOver cause c.promo.itemsRemain = false := Engine.takesOver_of_restores hr restores
  have endLength : e.endLength = length := by
    rw [Engine.endLength, Engine.template_of_record hr]
  have taken := Engine.takeCause_of_record hr cause
  have record : (e.takeCause cause).record = some { r with endCause := some cause } := by rw [taken]
  rw [exec_namesCause_eq hs hc hn]
  refine ⟨fun positive => ?_, fun zero => ?_⟩
  · rw [Engine.act_of_release takes (by omega), endLength, Engine.beginRelease_of_record record, taken]
    exact congrArg Host.Outcome.next ((finishEnd_goes ..).trans (State.modChan_congr rfl))
  · rw [Engine.act_of_cut takes (by omega)]
    obtain ⟨u, row, ended, flags, list, parser⟩ :=
      junctionEnd_of_worked (worked_withEngine c (e.takeCause cause)) record .completedRestore
    exact ⟨u, congrArg Host.Outcome.next row, ended, flags, list, parser⟩

/-- Settles O28: the cause takes over, so the takeover begins from the engine that has taken it. -/
theorem endCausesTakeOver : Obligations.EndCausesTakeOver := by
  intro ch i cause r s c e t0 promo hs hr hc hn notList takeover items
  have takes : e.takesOver cause c.promo.itemsRemain = true := (Engine.takesOver_iff hr).2 ⟨notList, takeover, items⟩
  have taken := Engine.takeCause_of_record hr cause
  have record : (e.takeCause cause).record = some { r with endCause := some cause } := by rw [taken]
  rw [exec_namesCause_eq hs hc hn, Engine.act_of_takesOver takes, Engine.beginTakeover_of_record record, taken]
  refine congrArg Host.Outcome.next ((finishEnd_goes ..).trans (State.modChan_congr ?_))
  dsimp only
  by_cases h : t0.mOut = 0
  · rw [if_pos h, if_pos h]
    rfl
  · rw [if_neg h, if_neg h]
    rfl

theorem fallen_of_not_expires {n : Option Nat} (h : expires n = false) : fallen n = n.map (· - 1) := by
  cases n with
  | none => rfl
  | some k =>
    have short : ¬ k ≤ 1 := of_decide_eq_false h
    rw [fallen, if_neg short]
    rfl

theorem Engine.markListEnd_eq (e : Engine) : e.markListEnd = { e with marker := markedListEnd e.marker } := by
  rcases e with ⟨_, _, _, _, _, _, _, _, _, _ | _ | _, _, _, _⟩ <;> rfl

section
variable {e : Engine} {r : JunctionRecord}

/-- The last event of a squeeze (R32, R34, R37). -/
theorem Engine.squeezeOn_of_last (hr : e.record = some r) (hk : e.m ≤ e.k + 1) (emptyList : Bool) :
    e.squeezeOn emptyList =
      { e with
        state := .held, k := 0, m := 0, move := none, credit := fallen e.credit, watch := r.watch
        pgmRect := some (r.template.getD fallbackLayout).pgmTarget
        promoRect := some (if e.degraded then fullFrame else (r.template.getD fallbackLayout).prmTarget)
        marker := if emptyList then markedListEnd e.marker else e.marker } := by
  have last : e.counted.advance.m ≤ e.counted.advance.k := by
    rw [Engine.advance_m, Engine.advance_k]
    exact hk
  have record : e.counted.advance.record = some r := by
    rw [Engine.advance_record]
    exact hr
  have shown : e.counted.advance =
      { e.counted with
        k := e.k + 1, pgmRect := e.counted.advance.pgmRect, promoRect := e.counted.advance.promoRect } := by
    unfold Engine.advance Engine.showMove
    split <;> rfl
  have held := Engine.promoTarget_of_record record
  rw [Engine.advance_degraded] at held
  rw [Engine.squeezeOn, if_pos last, Engine.enterHeld, held, Engine.template_of_record record, record, shown,
    Engine.markListEnd_eq, hr]
  cases emptyList <;> rfl

theorem Engine.work_of_squeeze {items emptyList : Bool} (hs : e.state = .squeeze) (hc : e.causeAt = none) :
    e.work items emptyList = { engine := e.squeezeOn emptyList, ending := .goes, tookCause := false } := by
  simp [Engine.work, hs, hc]

/-- The last event of a takeover (R42). -/
theorem Engine.work_of_takeover_last {items emptyList : Bool} (hs : e.state = .takeover) (hm : e.marker ≠ some .listEnd)
    (hk : e.m ≤ e.k + 1) :
    e.work items emptyList =
      { engine :=
          { e with
            state := .promoFull, k := 0, m := 0, move := none, pgmRect := none, promoRect := some fullFrame }
        ending := .goes, tookCause := false } := by
  have shown : e.advance.enterPromoFull = e.enterPromoFull := by
    unfold Engine.advance Engine.showMove
    split <;> rfl
  simp only [Engine.work, hs, if_neg hm, Engine.advance_m, Engine.advance_k, if_pos hk, shown]
  rfl

end

/-- Settles O30: with no end cause the counter of the move reaches its length. -/
theorem moveEndsEnterTheNextState : Obligations.MoveEndsEnterTheNextState := by
  intro ch r s e t0 hr hk
  refine ⟨fun hs hm hcr => ?_, fun hs hm => ?_⟩
  · have free : e.causeAt = none := by simp [Engine.causeAt, hs, hm, hcr]
    have comes : (decide (e.state = .squeeze) && e.causeAt.isNone && decide (e.m ≤ e.k + 1)) = true := by
      simp [hs, free, hk]
    have marker : (if (s.chan ch).emptyList then markedListEnd none else none) =
        if (s.chan ch).promo.play.bank = none then some Marker.listEnd else none := by
      unfold ChannelState.emptyList
      cases (s.chan ch).promo.play.bank <;> rfl
    have row : exec (.squeezeMoveEnd ch) s = .next (engineWork ch s) := congrArg Host.Outcome.next (if_pos comes)
    rw [row, engineWork_of_running (by rw [hs]; decide), Engine.work_of_squeeze hs free, Engine.squeezeOn_of_last hr hk,
      fallen_of_not_expires hcr]
    refine congrArg Host.Outcome.next ((finishEnd_goes ..).trans (State.modChan_congr ?_))
    rw [hm, marker]
    rfl
  · have comes : (decide (e.state = .takeover) && decide (e.marker ≠ some .listEnd) && decide (e.m ≤ e.k + 1)) = true := by
      simp [hs, hm, hk]
    have row : exec (.takeoverMoveEnd ch) s = .next (engineWork ch s) := congrArg Host.Outcome.next (if_pos comes)
    rw [row, engineWork_of_running (by rw [hs]; decide), Engine.work_of_takeover_last hs hm hk]
    exact congrArg Host.Outcome.next ((finishEnd_goes ..).trans (State.modChan_congr rfl))

end Sys2Proof.Machine
end


section
/-!
PROOFS. The start event (O24, O25): what the template step, the claim and the bank and counter steps leave of their
channel.
-/

namespace Sys2Proof.Machine

theorem Reporter.raiseIf_eq (r : Reporter) (b : Bool) (f : Flag) :
    r.raiseIf b f = { r with flags := r.flags ||| if b then f.word else 0 } := by
  cases b with
  | true => rfl
  | false =>
    rw [Reporter.raiseIf_false, if_neg Bool.false_ne_true]
    exact congrArg (fun w => { r with flags := w }) (BitVec.or_zero).symm

section
variable {ch : Channel} {s : State} {r : JunctionRecord}

/-! ### The template step -/

/-- The template step puts the fallback layout in the place of a template still awaited, with FALLBACK_USED (R27). -/
def JunctionRecord.fellBack (r : JunctionRecord) : Bool := decide (r.template = none) && decide (r.slot ≠ 0)

/-- The record the template step leaves (R27). -/
def JunctionRecord.templated (r : JunctionRecord) : JunctionRecord :=
  { r with template := some (r.template.getD fallbackLayout), fallbackUsed := r.fallbackUsed || r.fellBack }

/-- What the template step leaves of its channel (R27, R134). -/
theorem templateStep_own (hr : (s.chan ch).engine.record = some r) :
    (templateStep ch s).chan ch =
      { s.chan ch with
        engine := { (s.chan ch).engine with record := some r.templated }
        fetch := if r.template = none then .none else (s.chan ch).fetch
        composer := { (s.chan ch).composer with look := .ofTemplate (r.template.getD fallbackLayout) }
        reporter :=
          { (s.chan ch).reporter with
            flags := (s.chan ch).reporter.flags ||| if r.fellBack then Flag.fallbackUsed.word else 0 } } := by
  cases ht : r.template with
  | none =>
    have own : (withdrawFetch ch s).chan ch = { s.chan ch with fetch := .none } := State.chan_modChan_same ..
    have fell : r.fellBack = decide (r.slot ≠ 0) := by simp [JunctionRecord.fellBack, ht]
    rw [templateStep_of_awaited hr ht, State.chan_modChan_same, own, fell, ← Reporter.raiseIf_eq]
    simp [ChannelState.fallBack, ChannelState.takeLook, Engine.modRecord, Engine.template, hr,
      JunctionRecord.templated, ht, fell]
  | some t =>
    have known : ∀ x, (s.chan ch).engine.record = some x → x.template ≠ none := by
      intro x hx
      rw [hr] at hx
      rw [← Option.some.inj hx, ht]
      exact Option.some_ne_none t
    have fell : r.fellBack = false := by simp [JunctionRecord.fellBack, ht]
    rw [templateStep_of_known known, State.chan_modChan_same, fell, ← Reporter.raiseIf_eq, Reporter.raiseIf_false]
    have same : r.templated = r := by
      rw [JunctionRecord.templated, fell, ht, Option.getD_some, ← ht, Bool.or_false]
    have engine : { (s.chan ch).engine with record := some r } = (s.chan ch).engine := by rw [← hr]
    rw [same, engine]
    simp [ChannelState.takeLook, Engine.template, hr, ht]

theorem templateStep_pool_eq (ch : Channel) (s : State) : (templateStep ch s).pool = s.pool := by
  unfold templateStep
  split <;> rfl

theorem templateStep_library_of_known (hr : (s.chan ch).engine.record = some r) (ht : r.template ≠ none) :
    (templateStep ch s).library = s.library := by
  rw [templateStep_of_known]
  · rfl
  · intro x hx
    rw [hr] at hx
    rwa [← Option.some.inj hx]

theorem templateStep_fetches_of_awaited (hr : (s.chan ch).engine.record = some r) (ht : r.template = none) :
    ∀ f ∈ (templateStep ch s).library.fetchQueue ++ (templateStep ch s).library.setAside, f.channel ≠ ch := by
  rw [templateStep_of_awaited hr ht]
  intro f hf
  rcases List.mem_append.1 hf with h | h <;> exact of_decide_eq_true (List.mem_filter.1 h).2

/-! ### The claim -/

theorem claimScalers_of_granted (h : (s.pool.records.get ch).state = .granted) :
    claimScalers ch s = (s, (s.pool.records.get ch).granted) := by
  simp only [claimScalers, h]

theorem claimScalers_of_waiting (h : (s.pool.records.get ch).state = .waiting)
    (hg : 0 < min (s.pool.records.get ch).requested s.pool.free) :
    claimScalers ch s =
      ({ s with
        pool :=
          (s.pool.leaveQueue ch).setRecord ch
            { s.pool.records.get ch with
              state := .granted, granted := min (s.pool.records.get ch).requested s.pool.free } },
        min (s.pool.records.get ch).requested s.pool.free) := by
  simp only [claimScalers, h, if_neg hg.ne']

theorem claimScalers_waiting_snd (h : (s.pool.records.get ch).state = .waiting) :
    (claimScalers ch s).2 = min (s.pool.records.get ch).requested s.pool.free := by
  simp only [claimScalers, h]

theorem claimScalers_channels (ch : Channel) (s : State) : (claimScalers ch s).1.channels = s.channels := by
  unfold claimScalers
  dsimp only
  split <;> rfl

/-- What the claim and the grant test after it leave of the channel: the record has the grant of the claim (R93). -/
theorem claimed_own (ch : Channel) (s : State) :
    (s.claimed ch).chan ch =
      { (templateStep ch s).chan ch with
        engine := ((templateStep ch s).chan ch).engine.modRecord ({ · with granted := s.startGrant ch }) } := by
  have claim : (claimScalers ch (templateStep ch s)).1.chan ch = (templateStep ch s).chan ch := by
    unfold State.chan
    rw [claimScalers_channels]
  have twice (e : Engine) (m n : Nat) :
      (e.modRecord ({ · with granted := m })).modRecord ({ · with granted := n }) =
        e.modRecord ({ · with granted := n }) := by
    unfold Engine.modRecord
    cases e.record <;> rfl
  rw [State.claimed, State.modRecord, State.chan_modChan_same]
  rcases standsOrGranted_grantTest (claimScalers ch (templateStep ch s)).1 ch with ⟨chan, -⟩ | ⟨-, -, -, chan⟩
  · rw [chan, claim]
  · rw [chan, claim]
    dsimp only
    rw [twice]

theorem claimed_own_of_record (hr : (s.chan ch).engine.record = some r) :
    (s.claimed ch).chan ch =
      { s.chan ch with
        engine := { (s.chan ch).engine with record := some { r.templated with granted := s.startGrant ch } }
        fetch := if r.template = none then .none else (s.chan ch).fetch
        composer := { (s.chan ch).composer with look := .ofTemplate (r.template.getD fallbackLayout) }
        reporter :=
          { (s.chan ch).reporter with
            flags := (s.chan ch).reporter.flags ||| if r.fellBack then Flag.fallbackUsed.word else 0 } } := by
  rw [claimed_own, templateStep_own hr]
  rfl

/-- A claim that gives the channel scalers, or finds them given: its record, and the queue without it (R93). -/
theorem claimed_pool_of_claim {g : Nat}
    (h : (s.pool.records.get ch).state = .granted ∧ (s.pool.records.get ch).granted = g ∧ ch ∉ s.pool.queue ∨
      (s.pool.records.get ch).state = .waiting ∧ g = min (s.pool.records.get ch).requested s.pool.free ∧ 0 < g) :
    s.startGrant ch = g ∧
      (s.claimed ch).pool.records.get ch = { s.pool.records.get ch with state := .granted, granted := g } ∧
      ch ∉ (s.claimed ch).pool.queue ∧
      (s.pool.queue = [] ∨ s.pool.queue = [ch] → (s.claimed ch).pool.queue = []) := by
  have after (hq : ch ∉ (claimScalers ch (templateStep ch s)).1.pool.queue) :
      (s.claimed ch).pool.records.get ch = (claimScalers ch (templateStep ch s)).1.pool.records.get ch ∧
        ch ∉ (s.claimed ch).pool.queue := by
    obtain ⟨-, claim, queue⟩ := grantTest_stands hq
    exact ⟨claim, fun m => hq (queue.1 m)⟩
  have empty (hq : (claimScalers ch (templateStep ch s)).1.pool.queue = []) : (s.claimed ch).pool.queue = [] := by
    refine List.eq_nil_iff_forall_not_mem.2 fun c hc => ?_
    have mem : c ∈ (claimScalers ch (templateStep ch s)).1.pool.queue := by
      rcases standsOrGranted_grantTest (claimScalers ch (templateStep ch s)).1 c with ⟨-, -, m⟩ | ⟨m, -⟩
      · exact m.1 hc
      · exact m
    rw [hq] at mem
    cases mem
  have pool := templateStep_pool_eq ch s
  rcases h with ⟨hs, hg, hn⟩ | ⟨hs, hg, hp⟩
  · have claim := claimScalers_of_granted (ch := ch) (s := templateStep ch s) (by rwa [pool])
    rw [pool] at claim
    rw [claim, pool] at after empty
    obtain ⟨record, queue⟩ := after hn
    refine ⟨by rw [State.startGrant, claim, ← hg], ?_, queue, fun hq => empty (hq.resolve_right fun e => hn (by simp [e]))⟩
    rw [record, ← hs, ← hg]
  · have claim := claimScalers_of_waiting (ch := ch) (s := templateStep ch s) (by rwa [pool]) (by rwa [pool, ← hg])
    rw [pool, ← hg] at claim
    rw [claim] at after empty
    obtain ⟨record, queue⟩ := after (by simp [Pool.leaveQueue])
    refine ⟨by rw [State.startGrant, claim], ?_, queue, fun hq => empty ?_⟩
    · rw [record]
      simp
    · rcases hq with hq | hq <;> simp [Pool.leaveQueue, hq]

theorem claimed_library (ch : Channel) (s : State) : (s.claimed ch).library = (templateStep ch s).library :=
  (agreesButGrants_claimed ch s).library

theorem claimed_ref (ch : Channel) (s : State) : (s.claimed ch).ref = s.ref := (othersKept_claimed ch s).ref

/-! ### The bank, counter and state steps -/

theorem Template.p_eq_one_iff (t : Template) : t.p = 1 ↔ t.pgmTarget ≠ fullFrame := by
  unfold Template.p
  split <;> simp [*]

/-- The rectangles and counters the start event leaves, with the record and the marks of the junction (R28 to R30, R57,
R60, R61). -/
def Engine.started (e : Engine) (r : JunctionRecord) (t : Template) (g : Nat) (ready : Bool) : Engine :=
  let degraded := decide (g < t.p + t.q)
  let promoStart := if degraded then fullFrame else t.prmStart
  let promoTarget := if degraded then fullFrame else t.prmTarget
  let k0 := min r.lateness t.mIn
  { (if k0 < t.mIn then
      { e with
        state := .squeeze, k := k0, m := t.mIn
        move := some
          { pgm := some { src := fullFrame, dst := t.pgmTarget }
            promo := { src := promoStart, dst := promoTarget }, length := t.mIn, easing := t.easeIn }
        pgmRect := some (moveRect k0 t.mIn t.easeIn { src := fullFrame, dst := t.pgmTarget })
        promoRect := some (moveRect k0 t.mIn t.easeIn { src := promoStart, dst := promoTarget }) }
    else
      { e with
        state := .held, k := 0, m := 0, move := none, watch := r.watch, pgmRect := some t.pgmTarget,
        promoRect := some promoTarget, marker := if ready then e.marker else markedListEnd e.marker }) with
    record := some
      { r with itemsPlayed := if ready then 1 else r.itemsPlayed, latenessTaken := k0 }
    credit := if r.credit = 0 then none else some r.credit
    degraded := degraded
    pgmScaled := decide (t.pgmTarget ≠ fullFrame)
    promoScaled := decide (t.q = 1) && !degraded }

theorem Engine.started_record (e : Engine) (y : Option JunctionRecord) (r : JunctionRecord) (t : Template) (g : Nat)
    (ready : Bool) : { e with record := y }.started r t g ready = e.started r t g ready := by
  unfold Engine.started
  dsimp only
  split <;> rfl

theorem Engine.counterStep_of_record {e : Engine} {x : JunctionRecord} {t : Template} (hr : e.record = some x)
    (ht : x.template = some t) (emptyList : Bool) :
    e.counterStep emptyList =
      { (if min x.lateness t.mIn < t.mIn then
          { e with
            state := .squeeze, k := min x.lateness t.mIn, m := t.mIn
            move := some
              { pgm := some { src := fullFrame, dst := t.pgmTarget }
                promo :=
                  { src := if e.degraded then fullFrame else t.prmStart
                    dst := if e.degraded then fullFrame else t.prmTarget }
                length := t.mIn, easing := t.easeIn }
            pgmRect := some (moveRect (min x.lateness t.mIn) t.mIn t.easeIn { src := fullFrame, dst := t.pgmTarget })
            promoRect :=
              some
                (moveRect (min x.lateness t.mIn) t.mIn t.easeIn
                  { src := if e.degraded then fullFrame else t.prmStart
                    dst := if e.degraded then fullFrame else t.prmTarget }) }
        else
          { e with
            state := .held, k := 0, m := 0, move := none, watch := x.watch, pgmRect := some t.pgmTarget,
            promoRect := some (if e.degraded then fullFrame else t.prmTarget)
            marker := if emptyList then markedListEnd e.marker else e.marker }) with
        record := some { x with latenessTaken := min x.lateness t.mIn }
        credit := if x.credit = 0 then none else some x.credit } := by
  have template : e.template = t := by rw [Engine.template_of_record hr, ht, Option.getD_some]
  unfold Engine.counterStep
  rw [hr, template]
  dsimp only [Option.map_some, Option.getD_some]
  split
  · simp [Engine.showMove, Engine.promoStart, Engine.promoTarget, Engine.modRecord, Engine.template, hr, ht]
  · cases emptyList <;>
      simp [Engine.enterHeld, Engine.markListEnd_eq, Engine.promoTarget, Engine.modRecord, Engine.template, hr, ht]

theorem PromoList.begin_bank (p : PromoList) (b : BankId) : (p.begin b).play.bank = some b := rfl

/-- The channel after the bank, counter and state steps of a start event that is not missed (R28 to R30, R77). -/
theorem ChannelState.startJunction_of_record {c : ChannelState} {x : JunctionRecord} {t : Template}
    (hr : c.engine.record = some x) (ht : x.template = some t) (hp : c.promo.play.bank = none) (g : Nat) :
    (c.assignScalers g).startJunction x.firstBank =
      { c with
        engine := c.engine.started x t g (decide ((c.promo.bank x.firstBank).state = .ready))
        tally := true
        promo :=
          if decide ((c.promo.bank x.firstBank).state = .ready) then c.promo.begin x.firstBank else c.promo
        reporter :=
          { c.reporter with
            flags :=
              c.reporter.flags ||| (if decide (g < t.p + t.q) then Flag.scalerShort.word else 0) |||
                (if decide ((c.promo.bank x.firstBank).state = .ready) then 0 else Flag.noPromos.word) } } := by
  have template : c.engine.template = t := by rw [Engine.template_of_record hr, ht, Option.getD_some]
  have assigned : c.assignScalers g =
      { c with
        engine :=
          { c.engine with
            degraded := decide (g < t.p + t.q)
            pgmScaled := decide (t.pgmTarget ≠ fullFrame)
            promoScaled := decide (t.q = 1) && !decide (g < t.p + t.q) }
        reporter :=
          { c.reporter with
            flags := c.reporter.flags ||| if decide (g < t.p + t.q) then Flag.scalerShort.word else 0 } } := by
    rw [← Reporter.raiseIf_eq, ChannelState.assignScalers, template, decide_eq_decide.2 t.p_eq_one_iff]
  rw [assigned]
  unfold ChannelState.startJunction ChannelState.bankStep
  dsimp only
  by_cases ready : (c.promo.bank x.firstBank).state = .ready
  · rw [if_pos ready, decide_eq_true ready]
    dsimp only [ChannelState.withEngine]
    rw [Engine.counterStep_of_record (x := { x with itemsPlayed := 1 }) (by simp [Engine.modRecord, hr]) ht,
      PromoList.begin_bank]
    unfold Engine.started
    by_cases hk : min x.lateness t.mIn < t.mIn
    · simp only [if_pos hk]
      simp [Engine.modRecord, EngineState.tally]
    · simp only [if_neg hk]
      simp [Engine.modRecord, EngineState.tally]
  · rw [if_neg ready, decide_eq_false ready]
    dsimp only [ChannelState.withEngine]
    rw [Engine.counterStep_of_record (x := x) (by exact hr) ht, hp]
    unfold Engine.started
    by_cases hk : min x.lateness t.mIn < t.mIn
    · simp only [if_pos hk]
      simp [Reporter.raise, EngineState.tally]
    · simp only [if_neg hk]
      simp [Reporter.raise, EngineState.tally]

end

/-! ### The start event as a whole -/

section
variable {ch : Channel} {s : State} {r : JunctionRecord}

theorem startDue_of_armed (ha : (s.chan ch).engine.state = .armed) (hr : (s.chan ch).engine.record = some r) :
    startDue ch s = !ahead r.start s.ref.sfc := by
  simp only [startDue, ha, hr]

theorem engineWork_of_start (ha : (s.chan ch).engine.state = .armed) (due : startDue ch s = true) :
    engineWork ch s = finishEnd ch (startEvent ch s).2 (startEvent ch s).1 :=
  (if_pos ha).trans (if_pos due)

theorem exec_startEvent_eq (ha : (s.chan ch).engine.state = .armed) (hr : (s.chan ch).engine.record = some r)
    (hd : ahead r.start s.ref.sfc = false) :
    exec (.startEvent ch) s = .next (finishEnd ch (startEvent ch s).2 (startEvent ch s).1) := by
  have due : startDue ch s = true := by rw [startDue_of_armed ha hr, hd]; rfl
  exact congrArg Host.Outcome.next ((if_pos due).trans (engineWork_of_start ha due))

/-- The record the start event judges has what arming asked for, and the template step's template (R27, R28). -/
theorem claimed_record (hr : (s.chan ch).engine.record = some r) :
    ((s.claimed ch).chan ch).engine.record = some { r.templated with granted := s.startGrant ch } := by
  rw [claimed_own_of_record hr]

theorem claimed_template_p (hr : (s.chan ch).engine.record = some r) :
    ((s.claimed ch).chan ch).engine.template.p = 1 ↔ (r.template.getD fallbackLayout).pgmTarget ≠ fullFrame := by
  rw [Engine.template_of_record (claimed_record hr), Template.p_eq_one_iff]
  rfl

theorem startEvent_of_begins (hr : (s.chan ch).engine.record = some r)
    (hg : ¬ (s.startGrant ch = 0 ∧ (r.requested ≠ 0 ∨ (r.template.getD fallbackLayout).pgmTarget ≠ fullFrame))) :
    startEvent ch s =
      ((s.claimed ch).modChan ch fun c => (c.assignScalers (s.startGrant ch)).startJunction r.firstBank, .goes) := by
  have record := claimed_record hr
  rw [← claimed_template_p hr] at hg
  rcases startEvent_cases ch s with ⟨none, -⟩ | ⟨x, hx, ⟨misses, -⟩ | ⟨-, begins⟩⟩
  · cases none.symm.trans record
  · obtain rfl := Option.some.inj (hx.symm.trans record)
    exact absurd misses hg
  · obtain rfl := Option.some.inj (hx.symm.trans record)
    exact begins

theorem startEvent_of_misses (hr : (s.chan ch).engine.record = some r)
    (hg : s.startGrant ch = 0 ∧ (r.requested ≠ 0 ∨ (r.template.getD fallbackLayout).pgmTarget ≠ fullFrame)) :
    startEvent ch s = ((s.claimed ch).raise ch .missed, .cut .missedNoScaler) := by
  have record := claimed_record hr
  rw [← claimed_template_p hr] at hg
  rcases startEvent_cases ch s with ⟨none, -⟩ | ⟨x, hx, ⟨-, misses⟩ | ⟨begins, -⟩⟩
  · cases none.symm.trans record
  · exact misses
  · obtain rfl := Option.some.inj (hx.symm.trans record)
    exact absurd hg begins

theorem exec_startEvent_of_begins (ha : (s.chan ch).engine.state = .armed) (hr : (s.chan ch).engine.record = some r)
    (hd : ahead r.start s.ref.sfc = false)
    (hg : ¬ (s.startGrant ch = 0 ∧ (r.requested ≠ 0 ∨ (r.template.getD fallbackLayout).pgmTarget ≠ fullFrame))) :
    exec (.startEvent ch) s =
      .next ((s.claimed ch).modChan ch fun c => (c.assignScalers (s.startGrant ch)).startJunction r.firstBank) := by
  rw [exec_startEvent_eq ha hr hd, startEvent_of_begins hr hg, finishEnd_goes]

theorem exec_startEvent_of_misses (ha : (s.chan ch).engine.state = .armed) (hr : (s.chan ch).engine.record = some r)
    (hd : ahead r.start s.ref.sfc = false)
    (hg : s.startGrant ch = 0 ∧ (r.requested ≠ 0 ∨ (r.template.getD fallbackLayout).pgmTarget ≠ fullFrame)) :
    exec (.startEvent ch) s = .next (junctionEnd ch .missedNoScaler ((s.claimed ch).raise ch .missed)) := by
  rw [exec_startEvent_eq ha hr hd, startEvent_of_misses hr hg]
  rfl

theorem PromoList.spent_of_stopped {p : PromoList} (h0 : p.bank0.state ≠ .playing) (h1 : p.bank1.state ≠ .playing)
    (hp : p.play = .none) : p.spent = p := by
  rw [PromoList.spent, if_neg h0, if_neg h1]
  exact congrArg (fun q => { p with play := q }) hp.symm

end

/-- Settles O24: the template step, the claim with its grant test, then the bank, counter and state steps. -/
theorem startEventBeginsTheJunction : Obligations.StartEventBeginsTheJunction := by
  intro ch r g s c e t0 fell degraded promoStart promoTarget ready k0 q ha hr hd claim begins play
  obtain ⟨grant, record, left, empty⟩ := claimed_pool_of_claim claim
  have started := exec_startEvent_of_begins (ch := ch) (s := s) ha hr hd (by rwa [grant])
  have own := claimed_own_of_record hr
  rw [grant] at started own
  refine ⟨_, started, (othersKept_claimed ch s).trans (.modChan ch _ _), record, left, empty, fun known => (claimed_library ch s).trans (templateStep_library_of_known hr known), fun awaited => ?_, ?_⟩
  · have gone := templateStep_fetches_of_awaited hr awaited
    rw [← claimed_library] at gone
    exact gone
  · have begun := ChannelState.startJunction_of_record (c := (s.claimed ch).chan ch)
      (x := { r.templated with granted := g }) (t := t0) (by rw [own]) rfl (by rw [own]; exact play) g
    refine ((s.claimed ch).chan_modChan_same ch _).trans (begun.trans ?_)
    rw [own]
    dsimp only
    rw [Engine.started_record]
    rfl

/-- Settles O25: the grant of the claim is 0, so the start event cuts the junction. -/
theorem startEventMissesWithoutScaler : Obligations.StartEventMissesWithoutScaler := by
  intro ch r s c t0 fell q ha hr hd lacks stopped
  obtain ⟨stopped0, stopped1, play⟩ := stopped
  have pool := templateStep_pool_eq ch s
  have misses : s.startGrant ch = 0 ∧ (r.requested ≠ 0 ∨ t0.pgmTarget ≠ fullFrame) := by
    rcases lacks with ⟨waits, free, asks⟩ | ⟨granted, zero, squeezes⟩
    · rw [State.startGrant, claimScalers_waiting_snd (by rwa [pool]), pool, free]
      exact ⟨Nat.min_zero _, .inl asks⟩
    · rw [State.startGrant, claimScalers_of_granted (by rwa [pool]), pool]
      exact ⟨zero, .inr squeezes⟩
  have own := claimed_own_of_record hr
  rw [misses.1] at own
  have raised : ((s.claimed ch).raise ch .missed).chan ch =
      { (s.claimed ch).chan ch with reporter := ((s.claimed ch).chan ch).reporter.raise .missed } :=
    State.chan_modChan_same ..
  rw [own] at raised
  rw [exec_startEvent_of_misses ha hr hd misses]
  refine ⟨((s.claimed ch).raise ch .missed).ended ch ChannelState.spendBank
      (({ r.templated with granted := 0 } : JunctionRecord).last .missedNoScaler),
    congrArg Host.Outcome.next (endWith_eq _ _ (by rw [raised])),
    (State.ended_junctionEnded _ ch spendBank_listsOnly _).of_kept
      ((othersKept_claimed ch s).trans (.modReporter ch _ _)) ?_ ?_ ?_ ?_ ?_ ?_, ?_, ?_, ?_⟩
  · rw [raised]
  · rw [raised]
  · rw [raised]
  · rw [raised]
    rfl
  · rw [raised]
    rfl
  · rw [raised]
    rfl
  · rw [State.ended_flags _ ch spendBank_listsOnly, raised]
    rfl
  · rw [State.ended_chan, raised]
    exact (PromoList.endPlay_eq_spent _).trans (PromoList.spent_of_stopped stopped0 stopped1 play)
  · rw [State.ended_chan, raised]
    rfl

end Sys2Proof.Machine
end

section
/-!
PROOFS. The layer of the frame events: a channel frame event as the junction's work, the arm test and the miss sweep on
the state that finds it, with the frame after them; what that work leaves of the blocks beside the junction.
-/

namespace Sys2Proof.Machine

/-! ### What the junction's work leaves beside it -/

/-- Two reporters have the same to report but for the record and the flags that the junction and the schedule set. -/
structure Reporter.Noted (r q : Reporter) : Prop where
  results : q.results = r.results
  omitted : q.omitted = r.omitted
  readback : q.readback = r.readback
  sourceHold : q.flag .sourceHold = r.flag .sourceHold

theorem Reporter.Noted.refl (r : Reporter) : r.Noted r := ⟨rfl, rfl, rfl, rfl⟩

theorem Reporter.Noted.trans {r q p : Reporter} (h : r.Noted q) (h' : q.Noted p) : r.Noted p where
  results := h'.results.trans h.results
  omitted := h'.omitted.trans h.omitted
  readback := h'.readback.trans h.readback
  sourceHold := h'.sourceHold.trans h.sourceHold

theorem Reporter.noted_raise (r : Reporter) {f : Flag} (h : f.bit ≠ Flag.sourceHold.bit) : r.Noted (r.raise f) :=
  ⟨rfl, rfl, rfl, r.flag_raise_of_ne h⟩

theorem Reporter.noted_raiseIf (r : Reporter) (b : Bool) {f : Flag} (h : f.bit ≠ Flag.sourceHold.bit) :
    r.Noted (r.raiseIf b f) := by
  cases b
  · exact .refl r
  · exact r.noted_raise h

theorem Reporter.noted_record (r : Reporter) (l : LastJunction) : r.Noted (r.record l) := ⟨rfl, rfl, rfl, rfl⟩

/-- Two channels agree beside the junction: the parser, the output, the composer but for the settings it is handed, and
what the reporter has to report but for the record and the flags of the junction and the schedule. -/
structure ChannelState.Beside (c d : ChannelState) : Prop where
  parser : d.parser = c.parser
  output : d.output = c.output
  composer : { d.composer with look := c.composer.look } = c.composer
  reporter : c.reporter.Noted d.reporter

namespace ChannelState.Beside

theorem refl (c : ChannelState) : c.Beside c := ⟨rfl, rfl, rfl, .refl _⟩

theorem trans {c d e : ChannelState} (h : c.Beside d) (h' : d.Beside e) : c.Beside e where
  parser := h'.parser.trans h.parser
  output := h'.output.trans h.output
  composer := by
    rw [← h.composer, ← h'.composer]
  reporter := h.reporter.trans h'.reporter

/-- The junction's own blocks have no part in it. -/
theorem of_blocks {c d : ChannelState} (h1 : d.parser = c.parser) (h2 : d.output = c.output)
    (h3 : d.composer = c.composer) (h4 : c.reporter.Noted d.reporter) : c.Beside d :=
  ⟨h1, h2, by rw [h3], h4⟩

end ChannelState.Beside

/-- A channel stands beside its junction between two states. -/
def StandsBeside (ch : Channel) (s t : State) : Prop := (s.chan ch).Beside (t.chan ch)

namespace StandsBeside

section
variable {s t u : State} {ch : Channel}

theorem refl (ch : Channel) (s : State) : StandsBeside ch s s := ChannelState.Beside.refl _

theorem trans (h : StandsBeside ch s t) (h' : StandsBeside ch t u) : StandsBeside ch s u :=
  ChannelState.Beside.trans h h'

theorem modChan {f : ChannelState → ChannelState} (h : (s.chan ch).Beside (f (s.chan ch))) :
    StandsBeside ch s (s.modChan ch f) := by
  unfold StandsBeside
  rw [State.chan_modChan_same]
  exact h

theorem of_channels (h : t.channels = s.channels) : StandsBeside ch s t := by
  unfold StandsBeside State.chan
  rw [h]
  exact .refl _

theorem setFetch (h : t.channels = s.channels) (f : FetchState) : StandsBeside ch s (t.setFetch ch f) :=
  (of_channels h).trans (modChan (.of_blocks rfl rfl rfl (.refl _)))

theorem of_grants (h : AgreesButGrants s t) : StandsBeside ch s t := by
  obtain ⟨f, -, hf⟩ := h.2.2.2.2.2.2.2 ch
  unfold StandsBeside
  rw [hf]
  exact .of_blocks rfl rfl rfl (.refl _)

end

theorem withdrawFetch (ch : Channel) (s : State) : StandsBeside ch s (withdrawFetch ch s) :=
  setFetch (t := { s with
    library :=
      { s.library with
        fetchQueue := s.library.fetchQueue.filter (·.channel ≠ ch)
        setAside := s.library.setAside.filter (·.channel ≠ ch) } }) rfl .none

theorem fetchArrival (ch : Channel) (slot : Nat) (s : State) : StandsBeside ch s (fetchArrival ch slot s) := by
  unfold Machine.fetchArrival
  dsimp only
  split
  · exact setFetch rfl _
  · split
    · exact modChan (.of_blocks rfl rfl rfl (Reporter.noted_raiseIf _ _ (by decide)))
    · exact setFetch rfl _

theorem armTest (ch : Channel) (s : State) : StandsBeside ch s (armTest ch s) := by
  unfold Machine.armTest
  dsimp only
  split
  · split
    · unfold armEntry
      exact ((modChan (.of_blocks rfl rfl rfl (.refl _))).trans (fetchArrival _ _ _)).trans
        (of_grants (agreesButGrants_scalerRequest _ _ _ _))
    · exact refl ch s
  · exact refl ch s

theorem missOne (ch : Channel) (o : JunctionOutcome) (s : State) (e : Entry) : StandsBeside ch s (missOne ch o s e) :=
  modChan (.of_blocks rfl rfl rfl ((Reporter.noted_record ..).trans (Reporter.noted_raise _ (by decide))))

theorem missUnless (ch : Channel) (o : JunctionOutcome) (keep : Entry → Bool) (s : State) :
    StandsBeside ch s (missUnless ch o keep s) := by
  have missed (es : List Entry) : ∀ s, StandsBeside ch s (es.foldl (Machine.missOne ch o) s) := by
    induction es with
    | nil => exact refl ch
    | cons e es ih => exact fun s => (missOne ch o s e).trans (ih _)
  exact (modChan (.of_blocks rfl rfl rfl (.refl _))).trans (missed _ _)

theorem missSweep (ch : Channel) (s : State) : StandsBeside ch s (missSweep ch s) := missUnless ch _ _ s

theorem junctionEnd (ch : Channel) (o : JunctionOutcome) (s : State) : StandsBeside ch s (junctionEnd ch o s) := by
  unfold Machine.junctionEnd Machine.endWith
  split
  · exact refl ch s
  · rename_i r _
    dsimp only
    have ended (c : ChannelState) : c.Beside (c.afterEnd ChannelState.spendBank (r.last o)) :=
      ⟨rfl, rfl, rfl, Reporter.noted_record ..⟩
    exact (((of_grants (agreesButGrants_releaseClaim ch s)).trans (withdrawFetch ch _)).trans
      (modChan (f := (·.afterEnd ChannelState.spendBank (r.last o))) (ended _))).trans (armTest ch _)

theorem finishEnd (ch : Channel) (fe : FrameEnd) (s : State) : StandsBeside ch s (finishEnd ch fe s) := by
  cases fe with
  | goes => exact refl ch s
  | cut o => exact junctionEnd ch o s
  | ends o => exact junctionEnd ch o s

theorem templateStep (ch : Channel) (s : State) : StandsBeside ch s (templateStep ch s) := by
  have looked (c : ChannelState) : c.Beside c.takeLook := ⟨rfl, rfl, rfl, .refl _⟩
  have fell (c : ChannelState) (slot : Nat) : c.Beside ((c.fallBack slot).takeLook) :=
    .trans (d := c.fallBack slot) (.of_blocks rfl rfl rfl (Reporter.noted_raiseIf _ _ (by decide))) (looked _)
  unfold Machine.templateStep
  split
  · exact (withdrawFetch ch s).trans (modChan (fell _ _))
  · exact modChan (looked _)

theorem startEvent (ch : Channel) (s : State) : StandsBeside ch s (startEvent ch s).1 := by
  have claimed := (templateStep ch s).trans (of_grants (agreesButGrants_claimed ch s))
  have banked (c : ChannelState) (b : BankId) : c.reporter.Noted (c.bankStep b).reporter := by
    unfold ChannelState.bankStep
    split
    · exact .refl _
    · exact Reporter.noted_raise _ (by decide)
  rcases startEvent_cases ch s with ⟨-, he⟩ | ⟨r, -, ⟨-, he⟩ | ⟨-, he⟩⟩ <;> rw [he]
  · exact claimed
  · exact claimed.trans (modChan (.of_blocks rfl rfl rfl (Reporter.noted_raise _ (by decide))))
  · refine claimed.trans (modChan (.of_blocks (by simp) (by simp) (by simp) ?_))
    rw [ChannelState.startJunction_reporter]
    have short : ((s.claimed ch).chan ch).reporter.Noted
        (((s.claimed ch).chan ch).assignScalers (s.startGrant ch)).reporter :=
      Reporter.noted_raiseIf _ _ (by decide)
    exact short.trans (banked _ _)

theorem junctionFrame (ch : Channel) (v : PromoValidity) (s : State) : StandsBeside ch s (junctionFrame ch v s).1 := by
  have listed (c : ChannelState) (p : PromoList) (r : ListReport) (b : Bool) : c.Beside ((c.withList p r).markIf b) :=
    .of_blocks (by simp) (by simp) (by simp) (by simpa using Reporter.noted_raiseIf _ _ (by decide))
  have started := startEvent ch s
  have ran : StandsBeside ch s (s.setChan ch ((s.chan ch).runOn v).1) :=
    modChan (f := fun c => (c.runOn v).1)
      (.trans (d := (s.chan ch).withEngine ((s.chan ch).turn v).result.engine) (.of_blocks rfl rfl rfl (.refl _))
        (listed _ _ _ _))
  unfold Machine.junctionFrame
  split
  · exact refl ch s
  · split
    · split
      · rename_i he
        rw [he] at started
        exact started.trans (modChan (f := (·.countItem v)) (listed _ _ _ _))
      · rename_i he
        rw [he] at started
        exact started.trans (finishEnd ch _ _)
    · exact refl ch s
  · split <;> rename_i he <;> rw [he] at ran
    · exact ran
    · exact ran.trans (junctionEnd ch _ _)
    · exact ran.trans (junctionEnd ch _ _)

end StandsBeside

/-! ### The state a channel frame event finds -/

theorem State.modChan_chan (s : State) (ch : Channel) : s.setChan ch (s.chan ch) = s := by
  have same (p : PerChannel ChannelState) : p.set ch (p.get ch) = p := by cases ch <;> rfl
  unfold State.setChan State.chan
  rw [same]

theorem Parser.countArm_eq (p : Parser) :
    p.countArm =
      { p with arm := p.arm.bind fun a => if a.window ≤ 1 then none else some { a with window := a.window - 1 } } := by
  unfold Parser.countArm
  split
  · rename_i unset
    rw [unset, Option.bind_none, ← unset]
  · rename_i a set
    rw [set, Option.bind_some]

/-- The count of a frame by the load context and the reset arm, in the two words for it (R76, R171). -/
theorem ChannelState.countArm_countLoad (c : ChannelState) :
    { c.countLoad with parser := c.countLoad.parser.countArm } = c.frameCounted := by
  cases hx : c.parser.context with
  | none =>
    have load : c.countLoad = c := by simp only [ChannelState.countLoad, hx]
    rw [load, Parser.countArm_eq]
    simp only [ChannelState.frameCounted, hx]
  | some x =>
    by_cases h : x.countdown ≤ 1
    · rw [ChannelState.countLoad_of_last hx h, Parser.countArm_eq]
      simp only [ChannelState.frameCounted, hx, if_pos h, ChannelState.dropLoad, Bank.empty, Reporter.raise]
    · rw [ChannelState.countLoad_of_more hx h, Parser.countArm_eq]
      simp only [ChannelState.frameCounted, hx, if_neg h]

/-- The load context's and the reset arm's own work is the count of one more frame (R76, R171). -/
theorem armWork_loadWork (ch : Channel) (inp : FrameInputs) (s : State) :
    armWork ch (loadWork ch (s.judge inp.promo)) = s.atFrame ch inp := by
  unfold armWork loadWork State.atFrame State.modParser
  rw [State.modChan_modChan]
  exact State.modChan_congr (s.judge inp.promo |>.chan ch).countArm_countLoad

@[simp] theorem State.atFrame_chan (s : State) (ch : Channel) (inp : FrameInputs) :
    (s.atFrame ch inp).chan ch = (s.chan ch).frameCounted := State.chan_modChan_same ..

@[simp] theorem State.atFrame_ref (s : State) (ch : Channel) (inp : FrameInputs) : (s.atFrame ch inp).ref = s.ref := rfl

section
variable (c : ChannelState)

theorem ChannelState.frameCounted_fields :
    ∃ p q f, c.frameCounted =
      { c with
        promo := p
        parser :=
          { c.parser with
            arm := c.parser.arm.bind fun a => if a.window ≤ 1 then none else some { a with window := a.window - 1 }
            context := q }
        reporter := { c.reporter with flags := f } } := by
  unfold ChannelState.frameCounted
  split
  · exact ⟨_, _, _, rfl⟩
  · split <;> exact ⟨_, _, _, rfl⟩

@[simp] theorem ChannelState.frameCounted_schedule : c.frameCounted.schedule = c.schedule := by
  obtain ⟨p, q, f, h⟩ := c.frameCounted_fields
  rw [h]

@[simp] theorem ChannelState.frameCounted_engine : c.frameCounted.engine = c.engine := by
  obtain ⟨p, q, f, h⟩ := c.frameCounted_fields
  rw [h]

@[simp] theorem ChannelState.frameCounted_arm :
    c.frameCounted.parser.arm =
      c.parser.arm.bind fun a => if a.window ≤ 1 then none else some { a with window := a.window - 1 } := by
  obtain ⟨p, q, f, h⟩ := c.frameCounted_fields
  rw [h]

end

/-! ### The event as a whole -/

/-- The validity of the promo inputs at a channel frame event (R155). -/
def State.frameValidity (s : State) (inp : FrameInputs) : PromoValidity :=
  promoValidity s.ref.rate (s.promoFrames inp.promo)

/-- The state a channel frame event's junction and schedule work leads to, before the composer (R14, R16, R153). -/
def State.frameSettled (s : State) (ch : Channel) (inp : FrameInputs) : State :=
  missSweep ch (armTest ch (junctionFrame ch (s.frameValidity inp) (s.atFrame ch inp)).1)

/-- The frame the blocks hand the composer at a channel frame event (R135). -/
def State.frameView (s : State) (ch : Channel) (inp : FrameInputs) : FrameView :=
  (junctionFrame ch (s.frameValidity inp) (s.atFrame ch inp)).2

/-- The state a channel frame event leaves (R153). -/
def State.framed (s : State) (ch : Channel) (inp : FrameInputs) : State :=
  statusWork ch (Machine.frameValidity s.ref.rate (s.inputs inp))
    (composerWork ch (s.inputs inp) (s.frameView ch inp) (s.frameSettled ch inp))

theorem exec_channelFrameEvent (ch : Channel) (inp : FrameInputs) (s : State) :
    exec (.channelFrameEvent ch inp) s = .next (s.framed ch inp) := by
  rw [State.framed, State.frameSettled, State.frameView, ← armWork_loadWork]
  rfl

theorem frameTail_work (ch : Channel) (inp : FrameInputs) (view : FrameView) (v : Validity) (w : State) :
    State.FrameTail ch w (statusWork ch v (composerWork ch inp view w)) := by
  have own : (statusWork ch v (composerWork ch inp view w)).chan ch = _ := State.chan_modChan_same ..
  have composed : (composerWork ch inp view w).chan ch = (w.chan ch).compose w.ref.rate inp view :=
    State.chan_modChan_same ..
  rw [composed] at own
  refine ⟨rfl, fun x hx => ?_, ?_, ?_, ?_⟩
  · exact (State.chan_modChan_ne _ hx _).trans (State.chan_modChan_ne _ hx _)
  · rw [own]
    simp only [ChannelState.compose, Reporter.raiseIf_eq]
  · rw [own]
    rfl
  · rw [own]
    simp only [ChannelState.compose]
    cases (drawProgramme w.ref.rate inp view (w.chan ch).composer.pgmHold).begins ||
      (drawPromo w.ref.rate inp view (w.chan ch).composer.promoHold).begins
    · exact .inl rfl
    · exact .inr rfl

theorem State.framed_tail (s : State) (ch : Channel) (inp : FrameInputs) :
    State.FrameTail ch (s.frameSettled ch inp) (s.framed ch inp) := frameTail_work ..

theorem standsBeside_frameSettled (s : State) (ch : Channel) (inp : FrameInputs) :
    StandsBeside ch (s.atFrame ch inp) (s.frameSettled ch inp) :=
  (StandsBeside.junctionFrame ch _ _).trans ((StandsBeside.armTest ch _).trans (.missSweep ch _))

theorem State.framed_parser (s : State) (ch : Channel) (inp : FrameInputs) :
    ((s.framed ch inp).chan ch).parser = ((s.atFrame ch inp).chan ch).parser := by
  rw [(s.framed_tail ch inp).own]
  exact (standsBeside_frameSettled s ch inp).parser

/-! ### The reset arm -/

section
variable {scope : Nat} {ch : Channel} {sc : Scope} {s : State}

theorem scopeOf_of_above (h : 1 < scope) : scopeOf scope = none := by
  match scope, h with
  | n + 2, _ => rfl

theorem scopeOf_of_named (h : (scope = 0 ∧ sc = .channel) ∨ (scope = 1 ∧ sc = .part)) : scopeOf scope = some sc := by
  rcases h with ⟨rfl, rfl⟩ | ⟨rfl, rfl⟩ <;> rfl

theorem resetArmBody_of_above (h : 1 < scope) : resetArmBody ch scope s = (s, .badField) := by
  simp only [resetArmBody, scopeOf_of_above h]

theorem resetBody_of_above (before : Option ResetArm) (h : 1 < scope) :
    resetBody ch before scope s = (s, .badField) := by
  simp only [resetBody, scopeOf_of_above h]

theorem resetArmBody_of_unmanaged (hm : s.management.get ch = false) : resetArmBody ch 1 s = (s, .notManager) :=
  if_pos ⟨rfl, by simp [hm]⟩

theorem resetBody_of_unmanaged (before : Option ResetArm) (hm : s.management.get ch = false) :
    resetBody ch before 1 s = (s, .notManager) := if_pos ⟨rfl, by simp [hm]⟩

theorem resetArmBody_of_named (hs : scopeOf scope = some sc) (hm : sc = .part → s.management.get ch = true) :
    resetArmBody ch scope s = (s.modParser ch ({ · with arm := some { scope := sc, window := 2 } }), .ok) := by
  have allowed : ¬ (sc = .part ∧ ¬ s.management.get ch) := fun h => h.2 (hm h.1)
  simp only [resetArmBody, hs, if_neg allowed]

theorem resetBody_of_unarmed {before : Option ResetArm} (hs : scopeOf scope = some sc)
    (hm : sc = .part → s.management.get ch = true) (hb : before.map (·.scope) ≠ some sc) :
    resetBody ch before scope s = (s, .notArmed) := by
  have allowed : ¬ (sc = .part ∧ ¬ s.management.get ch) := fun h => h.2 (hm h.1)
  simp only [resetBody, hs, if_neg allowed, if_pos hb]

end

/-- Settles O49: the fields, the manager, then the arm; the frame's own count of the window stands to its end. -/
theorem resetArmIsTestedAndExpires : Obligations.ResetArmIsTestedAndExpires := by
  intro ch m scope sc s manages arm named
  refine ⟨fun above => ⟨?_, ?_⟩, ?_, fun hn hm => ⟨?_, fun unarmed => ?_⟩, fun a ha => ⟨fun last => ?_, fun inp => ?_⟩⟩
  · exact congrArg Host.Outcome.next (take_eq_refusing (resetArmBody_of_above above))
  · exact congrArg Host.Outcome.next (take_eq_refusing (resetBody_of_above _ above))
  · rintro rfl hm
    exact ⟨congrArg Host.Outcome.next (take_eq_refusing (resetArmBody_of_unmanaged hm)),
      congrArg Host.Outcome.next (take_eq_refusing (resetBody_of_unmanaged _ hm))⟩
  · exact congrArg Host.Outcome.next (take_eq_answering (resetArmBody_of_named (scopeOf_of_named hn) hm))
  · refine congrArg Host.Outcome.next (take_eq_refusing (resetBody_of_unarmed (scopeOf_of_named hn) hm fun h => ?_))
    obtain ⟨a, ha, hs⟩ := Option.map_eq_some_iff.1 h
    exact unarmed a ha hs
  · have set : (s.chan ch).parser.arm = some a := ha
    have row : execResetArmExpiry ch s = .next (armWork ch s) := by
      simp only [execResetArmExpiry, set, if_pos last]
    have cleared : (s.chan ch).parser.countArm = { (s.chan ch).parser with arm := none } := by
      rw [Parser.countArm_eq, set, Option.bind_some, if_pos last]
    refine row.trans (congrArg Host.Outcome.next ?_)
    unfold armWork State.modParser
    exact State.modChan_congr (congrArg (fun p => { s.chan ch with parser := p }) cleared)
  · refine ⟨_, exec_channelFrameEvent ch inp s, ?_⟩
    rw [State.framed_parser, State.atFrame_chan, ChannelState.frameCounted_arm]
    exact congrArg (·.bind fun a : ResetArm => if a.window ≤ 1 then none else some { a with window := a.window - 1 }) ha

end Sys2Proof.Machine
end


section
/-!
PROOFS. The miss sweep (O21) and how it meets the arm test: what a sweep leaves, that an armed engine arms no more, and
that an IDLE engine that has armed nothing has nothing to miss.
-/

namespace Sys2Proof.Machine

/-! ### The sweep -/

section
variable {ch : Channel} {s : State} {o : JunctionOutcome}

/-- The reporter after entries have been missed (R16, R17). -/
def Reporter.missAll (r : Reporter) (o : JunctionOutcome) (es : List Entry) : Reporter :=
  es.foldl (fun r e => (r.record (missRecord e o)).raise .missed) r

theorem foldl_missOne (ch : Channel) (o : JunctionOutcome) (es : List Entry) (s : State) :
    es.foldl (missOne ch o) s = s.modReporter ch (·.missAll o es) := by
  induction es generalizing s with
  | nil => exact (s.modChan_chan ch).symm
  | cons e es ih =>
    rw [List.foldl_cons, ih, missOne, State.modReporter, State.modReporter, State.modChan_modChan]
    rfl

theorem Reporter.missAll_of_ne_nil (r : Reporter) (o : JunctionOutcome) {es : List Entry} (h : es ≠ []) :
    r.missAll o es =
      { r with flags := r.flags ||| Flag.missed.word, last := es.getLast?.map (missRecord · o) } := by
  induction es using List.reverseRecOn with
  | nil => exact absurd rfl h
  | append_singleton es e ih =>
    rw [Reporter.missAll, List.foldl_concat, ← Reporter.missAll, List.getLast?_concat, Option.map_some]
    by_cases hes : es = []
    · rw [hes]
      rfl
    · rw [ih hes]
      simp [Reporter.record, Reporter.raise, BitVec.or_assoc]

/-- What a sweep leaves: the entries it keeps, and the reporter after the others (R16, R17). -/
theorem missUnless_eq (ch : Channel) (o : JunctionOutcome) (keep : Entry → Bool) (s : State) :
    missUnless ch o keep s =
      s.modChan ch fun c =>
        { c with
          schedule := { c.schedule with entries := c.schedule.entries.filter keep }
          reporter := c.reporter.missAll o (c.schedule.entries.filter fun e => !keep e) } := by
  rw [missUnless, foldl_missOne, State.modReporter, State.modChan_modChan]
  exact State.modChan_congr rfl

theorem missUnless_of_kept {keep : Entry → Bool} (h : ((s.chan ch).schedule.entries.filter fun e => !keep e) = []) :
    missUnless ch o keep s = s := by
  have kept : (s.chan ch).schedule.entries.filter keep = (s.chan ch).schedule.entries := by
    rw [List.filter_eq_self]
    intro e he
    have out := List.filter_eq_nil_iff.1 h e he
    rwa [Bool.not_eq_true', Bool.not_eq_false] at out
  have same : (fun c : ChannelState =>
      { c with
        schedule := { c.schedule with entries := c.schedule.entries.filter keep }
        reporter := c.reporter.missAll o (c.schedule.entries.filter fun e => !keep e) }) (s.chan ch) = s.chan ch := by
    dsimp only
    rw [h, kept]
    rfl
  rw [missUnless_eq]
  exact (congrArg (s.setChan ch) same).trans (s.modChan_chan ch)

theorem exec_missedBusy_of_busy (h : (s.chan ch).engine.state ≠ .idle) :
    exec (.missedBusy ch) s = .next (missSweep ch s) := congrArg Host.Outcome.next (if_neg h)

theorem exec_missedBusy_of_idle (h : (s.chan ch).engine.state = .idle) : exec (.missedBusy ch) s = .next s :=
  congrArg Host.Outcome.next (if_pos h)

end

/-! ### The arm test and the sweep together -/

section
variable {ch : Channel} {s : State}

theorem armEntry_engine_state (ch : Channel) (e : Entry) (rest : List Entry) (s : State) :
    ((armEntry ch e rest s).chan ch).engine.state = .armed := by
  have own : (s.armed ch e rest).chan ch = _ := State.chan_modChan_same ..
  obtain ⟨_, _, fetched, -⟩ := fetchArrival_own (ch := ch) (slot := e.slot) (s := s.armed ch e rest)
    (r := .opening e (s.library.need e.slot)) (by rw [own]; rfl) rfl rfl
  rw [armEntry_eq, (agreesButGrants_scalerRequest ..).engineState, fetched, own]
  rfl

theorem armTest_of_busy (h : (s.chan ch).engine.state ≠ .idle) : armTest ch s = s := by
  unfold armTest
  dsimp only
  split
  · exact absurd ‹_› h
  · rfl

/-- The arm test arms the first entry, or leaves a state with a busy engine, no entry, or a first entry too far ahead
(R14). -/
theorem armTest_cases (ch : Channel) (s : State) :
    ((armTest ch s).chan ch).engine.state = .armed ∨
      armTest ch s = s ∧
        ((s.chan ch).engine.state ≠ .idle ∨ (s.chan ch).schedule.entries = [] ∨
          ∃ e rest, (s.chan ch).schedule.entries = e :: rest ∧ nearEnough e.start s.ref.sfc = false) := by
  by_cases hi : (s.chan ch).engine.state = .idle
  · cases he : (s.chan ch).schedule.entries with
    | nil => exact .inr ⟨by simp only [armTest, hi, he], .inr (.inl rfl)⟩
    | cons e rest =>
      cases hn : nearEnough e.start s.ref.sfc with
      | true =>
        rw [armTest_of_near hi he hn]
        exact .inl (armEntry_engine_state ..)
      | false => exact .inr ⟨by simp [armTest, hi, he, hn], .inr (.inr ⟨e, rest, rfl, hn⟩)⟩
  · exact .inr ⟨armTest_of_busy hi, .inl hi⟩

theorem armTest_armTest (ch : Channel) (s : State) : armTest ch (armTest ch s) = armTest ch s := by
  rcases armTest_cases ch s with armed | ⟨same, -⟩
  · exact armTest_of_busy (by rw [armed]; decide)
  · rw [same, same]

/-- An IDLE engine that the arm test has left IDLE has no due entry (R4, R14). -/
theorem nothing_due_of_idle (hs : (s.chan ch).schedule.Sound s.ref.sfc)
    (hi : ((armTest ch s).chan ch).engine.state = .idle) :
    armTest ch s = s ∧ ((s.chan ch).schedule.entries.filter fun e => !ahead e.start s.ref.sfc) = [] := by
  obtain ⟨-, -, -, sorted⟩ := hs
  rcases armTest_cases ch s with armed | ⟨same, busy | empty | ⟨e, rest, he, far⟩⟩
  · rw [armed] at hi
    cases hi
  · rw [same] at hi
    exact absurd hi busy
  · exact ⟨same, by rw [empty]; rfl⟩
  · refine ⟨same, List.filter_eq_nil_iff.2 fun f hf => ?_⟩
    have first : ahead e.start s.ref.sfc = true := by
      rw [nearEnough, Bool.or_eq_false_iff, Bool.not_eq_false'] at far
      exact far.1
    rw [he] at hf sorted
    have later : ahead f.start s.ref.sfc = true := by
      rcases List.mem_cons.1 hf with rfl | hr
      · exact first
      · rw [ahead_iff_orderKey] at first ⊢
        exact first.trans ((List.pairwise_cons.1 sorted).1 f hr)
    rw [later]
    decide

/-- After the arm test the row MISSED_BUSY is the miss sweep (R16). -/
theorem exec_missedBusy_armTest (hs : (s.chan ch).schedule.Sound s.ref.sfc) :
    exec (.missedBusy ch) (armTest ch s) = .next (missSweep ch (armTest ch s)) := by
  by_cases hi : ((armTest ch s).chan ch).engine.state = .idle
  · obtain ⟨same, nothing⟩ := nothing_due_of_idle hs hi
    rw [exec_missedBusy_of_idle hi, same]
    exact congrArg Host.Outcome.next (missUnless_of_kept nothing).symm
  · exact exec_missedBusy_of_busy hi

end

/-- Settles O21: the sweep by its entries; at a frame, the junction's own work leaves the state as it finds it. -/
theorem missedBusyDropsDueEntries : Obligations.MissedBusyDropsDueEntries := by
  intro ch s missed
  refine ⟨fun busy some => ?_, fun busy none => ?_, fun inp sound quiet => ?_⟩
  · rw [exec_missedBusy_of_busy busy, missSweep, missUnless_eq]
    refine congrArg Host.Outcome.next (State.modChan_congr ?_)
    rw [Reporter.missAll_of_ne_nil _ _ some]
    rfl
  · rw [exec_missedBusy_of_busy busy]
    exact congrArg Host.Outcome.next (missUnless_of_kept none)
  · have stands (v : PromoValidity) : (junctionFrame ch v (s.atFrame ch inp)).1 = s.atFrame ch inp := by
      unfold junctionFrame
      rcases quiet with idle | ⟨armed, r, hr, ahead⟩
      · rw [State.atFrame_chan, ChannelState.frameCounted_engine, idle]
      · have due : startDue ch (s.atFrame ch inp) = false := by
          rw [startDue_of_armed (r := r) (by simpa using armed) (by simpa using hr), State.atFrame_ref, ahead]
          rfl
        rw [State.atFrame_chan, ChannelState.frameCounted_engine, armed]
        dsimp only
        rw [due]
        rfl
    have tail := s.framed_tail ch inp
    rw [State.frameSettled, stands] at tail
    exact ⟨_, _, _, rfl, exec_missedBusy_armTest (by simpa using sound), exec_channelFrameEvent ch inp s, tail⟩

end Sys2Proof.Machine
end


section
/-!
PROOFS. The status packet of a channel frame event (O54): its length, field by field, and the state it is built from.
-/

namespace Sys2Proof.Machine

/-! ### The length of a status payload -/

theorem bytes16_length (n : Nat) : (bytes16 n).length = 2 := rfl
theorem bytes24_length (n : Nat) : (bytes24 n).length = 3 := rfl
theorem bytes32_length (n : Nat) : (bytes32 n).length = 4 := rfl

theorem refBytes_length (r : RefCounter) (v : Validity) : (refBytes r v).length = 5 := rfl

theorem engineBytes_length (e : Engine) : (engineBytes e).length = 12 := rfl

theorem requestBytes_length (p : Pool) (sfc : FrameValue) (ch : Channel) : (requestBytes p sfc ch).length = 4 := rfl

theorem fetchBytes_length (l : Library) (ch : Channel) (f : FetchState) : (fetchBytes l ch f).length = 2 := rfl

theorem scheduleBytes_length (s : Schedule) : (scheduleBytes s).length = 7 := rfl

theorem bankBytes_length (b : Bank) : (bankBytes b).length = 3 := rfl

theorem contextBytes_length (x : Option LoadContext) : (contextBytes x).length = 3 := by cases x <;> rfl

theorem playBytes_length (p : PromoList) : (playBytes p).length = 6 := rfl

theorem composerBytes_length (c : Composer) : (composerBytes c).length = 15 := rfl

theorem parserBytes_length (p : Parser) (m : PerChannel Bool) : (parserBytes p m).length = 4 := rfl

theorem lastBytes_length (l : Option LastJunction) : (lastBytes l).length = 11 := by cases l <;> rfl

theorem padTo_length {n : Nat} {l : List Nat} (h : l.length ≤ n) : (padTo n l).length = n := by
  rw [padTo, List.length_append, List.length_replicate]
  omega

theorem resultsBytes_length (es : List ResultEntry) : (es.flatMap resultBytes).length = 3 * es.length := by
  induction es with
  | nil => rfl
  | cons e es ih =>
    rw [List.flatMap_cons, List.length_append, ih, List.length_cons, resultBytes]
    simp
    omega

theorem reporterBytes_length {r : Reporter} (h : r.Sound) : (reporterBytes r).length = 26 := by
  have results : (r.results.flatMap resultBytes).length ≤ 12 := by
    have four : r.results.length ≤ 4 := h.1
    rw [resultsBytes_length]
    omega
  simp only [reporterBytes, List.length_append, padTo_length results, lastBytes_length, bytes16_length, List.length_cons,
    List.length_nil]

theorem libraryBytes_length (l : Library) : (libraryBytes l).length = 5 := by
  unfold libraryBytes
  cases l.operation <;> rfl

theorem protectionBytes_length (p : LibraryProtection) : (protectionBytes p).length = 6 := rfl

theorem readbackBytes_length (r : Option Readback) :
    (readbackBytes r).length = 4 + (r.map fun r => r.content.length).getD 0 := by
  cases r with
  | none => rfl
  | some r =>
    have keys : r.keys.length = 3 := by cases r <;> rfl
    simp [readbackBytes, keys]
    omega

theorem statusPayload_length (ch : Channel) (v : Validity) {s : State} (h : (s.chan ch).reporter.Sound) :
    (statusPayload ch v s).length = 107 + ((s.chan ch).reporter.readback.map fun r => r.content.length).getD 0 := by
  simp only [statusPayload, List.length_append, refBytes_length, engineBytes_length, requestBytes_length,
    fetchBytes_length, scheduleBytes_length, bankBytes_length, contextBytes_length, playBytes_length,
    composerBytes_length, parserBytes_length, reporterBytes_length h, libraryBytes_length, protectionBytes_length,
    readbackBytes_length, List.length_cons, List.length_nil]
  omega

/-! ### The frame a channel frame event leaves -/

theorem ChannelState.frameCounted_noted (c : ChannelState) : c.reporter.Noted c.frameCounted.reporter := by
  unfold ChannelState.frameCounted
  split
  · exact .refl _
  · split
    · exact c.reporter.noted_raise (f := .loadTimeout) (by decide)
    · exact .refl _

section
variable (s : State) (ch : Channel) (inp : FrameInputs)

theorem State.frameSettled_kept : State.OthersKept ch (s.judge inp.promo) (s.frameSettled ch inp) := by
  have found : State.OthersKept ch (s.judge inp.promo) (s.atFrame ch inp) := .modChan ch _ (s.judge inp.promo)
  exact found.trans ((State.OthersKept.junctionFrame ch _ _).trans ((State.OthersKept.armTest ch _).trans (.missSweep ch _)))

/-- The state in which the composer has done its work at a channel frame event. -/
def State.frameComposed : State :=
  composerWork ch (s.inputs inp) (s.frameView ch inp) (s.frameSettled ch inp)

/-- The channel as the composer leaves it at a channel frame event. -/
def State.frameChannel : ChannelState :=
  ((s.frameSettled ch inp).chan ch).compose s.ref.rate (s.inputs inp) (s.frameView ch inp)

theorem State.frameComposed_chan : (s.frameComposed ch inp).chan ch = s.frameChannel ch inp := by
  have rate : (s.frameSettled ch inp).ref = s.ref := (s.frameSettled_kept ch inp).ref
  rw [State.frameComposed, composerWork, State.chan_modChan_same, rate, State.frameChannel]

/-- The channel as a channel frame event leaves it: the composer's work, the status packet put in, the lists emptied. -/
theorem State.framed_own :
    (s.framed ch inp).chan ch =
      { s.frameChannel ch inp with
        output :=
          (s.frameChannel ch inp).output.modBuilt
            (insertAhead (statusPacket ch (Machine.frameValidity s.ref.rate (s.inputs inp)) (s.frameComposed ch inp)))
        reporter := { (s.frameChannel ch inp).reporter with results := [], omitted := false, readback := none } } := by
  have own : (s.framed ch inp).chan ch = _ := State.chan_modChan_same ..
  rw [own, ← State.frameComposed_chan]
  rfl

theorem State.atFrame_beside :
    ((s.atFrame ch inp).chan ch).output = (s.chan ch).output ∧
      ((s.atFrame ch inp).chan ch).composer = (s.chan ch).composer ∧
      (s.chan ch).reporter.Noted ((s.atFrame ch inp).chan ch).reporter := by
  obtain ⟨p, q, f, h⟩ := (s.chan ch).frameCounted_fields
  have noted := (s.chan ch).frameCounted_noted
  rw [s.atFrame_chan]
  exact ⟨by rw [h], by rw [h], noted⟩

theorem State.frameSettled_noted : (s.chan ch).reporter.Noted ((s.frameSettled ch inp).chan ch).reporter :=
  (s.atFrame_beside ch inp).2.2.trans (standsBeside_frameSettled s ch inp).reporter

theorem State.frameSettled_output : ((s.frameSettled ch inp).chan ch).output = (s.chan ch).output :=
  (standsBeside_frameSettled s ch inp).output.trans (s.atFrame_beside ch inp).1

/-- The composer keeps what the reporter has to report (R139, R176). -/
theorem State.frameChannel_reporter :
    { (s.frameChannel ch inp).reporter with
        results := (s.chan ch).reporter.results, omitted := (s.chan ch).reporter.omitted
        readback := (s.chan ch).reporter.readback } = (s.frameChannel ch inp).reporter := by
  have noted := s.frameSettled_noted ch inp
  have raised : (s.frameChannel ch inp).reporter =
      ((s.frameSettled ch inp).chan ch).reporter.raiseIf _ .sourceHold := rfl
  rw [raised, Reporter.raiseIf_eq, ← noted.results, ← noted.omitted, ← noted.readback]

/-- The status packet is the one of the state the event leaves, with the lists it emptied put back (R175, R176). -/
theorem State.statusPacket_reported (v : Validity) :
    statusPacket ch v (State.reported ch s (s.framed ch inp)) = statusPacket ch v (s.frameComposed ch inp) := by
  have reported : (State.reported ch s (s.framed ch inp)).chan ch =
      { (s.frameComposed ch inp).chan ch with output := ((s.framed ch inp).chan ch).output } := by
    rw [State.reported, State.modReporter, State.chan_modChan_same, s.framed_own, s.frameComposed_chan]
    dsimp only
    rw [s.frameChannel_reporter ch inp]
  have payload : statusPayload ch v (State.reported ch s (s.framed ch inp)) = statusPayload ch v (s.frameComposed ch inp) := by
    unfold statusPayload
    rw [reported]
    rfl
  rw [statusPacket, payload, statusPacket]

end

/-- Settles O54: the length field by field, and the packet put ahead of those of the frame the composer built. -/
theorem statusPacketsReport : Obligations.StatusPacketsReport := by
  refine ⟨fun ch v s sound => ?_, ?_⟩
  · rw [statusPayload_length ch v sound]
    cases (s.chan ch).reporter.readback <;> rfl
  · intro ch inp s p
    have own := s.framed_own ch inp
    have packet := s.statusPacket_reported ch inp (Machine.frameValidity s.ref.rate (s.inputs inp))
    rw [← packet] at own
    refine ⟨_, _, exec_channelFrameEvent ch inp s, by rw [own]; rfl, rfl, classify_gosmaraWords_status _, ?_, ?_⟩
    · rw [← s.frameSettled_output ch inp]
      rfl
    · rw [own]
      exact ⟨rfl, rfl, rfl, rfl⟩

end Sys2Proof.Machine
end


section
/-!
PROOFS. The frame of an IDLE channel with nothing due (O55): its blocks stand, and the composer copies PGM-x.
-/

namespace Sys2Proof.Machine

/-! ### What such a frame leaves of the blocks -/

section
variable {s : State} {ch : Channel}

theorem State.atFrame_of_quiet (inp : FrameInputs) (hx : (s.chan ch).parser.context = none)
    (ha : (s.chan ch).parser.arm = none) : s.atFrame ch inp = s.judge inp.promo := by
  have counted : (s.chan ch).frameCounted = s.chan ch := by
    simp only [ChannelState.frameCounted, hx, ha, Option.bind_none]
    rw [← ha, ← hx]
  exact (congrArg ((s.judge inp.promo).setChan ch) counted).trans ((s.judge inp.promo).modChan_chan ch)

theorem junctionFrame_of_idle (v : PromoValidity) (hi : (s.chan ch).engine.state = .idle) :
    junctionFrame ch v s = (s, .passthrough) := by
  unfold junctionFrame
  rw [hi]

theorem sweep_of_empty (he : (s.chan ch).schedule.entries = []) : missSweep ch (armTest ch s) = s := by
  have stands : armTest ch s = s := by
    unfold armTest
    dsimp only
    rw [he]
    cases (s.chan ch).engine.state <;> rfl
  rw [stands]
  exact missUnless_of_kept (by rw [he]; rfl)

/-! ### What the composer makes of a passthrough frame -/

theorem windowPicture_fullFrame (p : Picture) : windowPicture fullFrame p = p := if_pos ⟨rfl, rfl⟩

theorem drawProgramme_passthrough {rate : FrameRate} {inp : FrameInputs} (hv : inputValid rate inp.pgm = true)
    (h : Hold) :
    drawProgramme rate inp .passthrough h =
      { picture := inp.pgm.picture, hold := { counter := 0, picture := some inp.pgm.picture }, begins := false } := by
  have drawn : drawProgramme rate inp .passthrough h =
      drawInput (inputValid rate inp.pgm) inp.pgm.picture fullFrame FrameView.passthrough.look.backing h := rfl
  rw [drawn, drawInput, if_pos hv, windowPicture_fullFrame]

theorem Gain.retarget_same {g : Gain} {n : Nat} (h : g.target = n) : g.retarget n = g := if_pos h.symm

theorem Gain.at_of_settled {g : Gain} (h : g.position = none) (n : Nat) : g.at n = g.target := by
  simp only [Gain.at, h]

theorem Gain.after_of_settled {g : Gain} (h : g.position = none) (n : Nat) :
    g.after n = { g with present := if n = 0 then g.present else g.target } := by
  simp only [Gain.after, Gain.at_of_settled h, h]

theorem mixSample_unaltered {x : Int} (h : -8388608 ≤ x ∧ x ≤ 8388607) : mixSample x 0 65536 0 = x := by
  unfold mixSample
  omega

theorem mixFrame_unaltered {gP gR : Gain} {l : List Sample} (hp : gP.position = none) (htp : gP.target = 65536)
    (hr : gR.position = none) (htr : gR.target = 0) (hl : ∀ x ∈ l, sampleWf x = true) :
    mixFrame l.length gP gR l [] = l := by
  refine List.ext_getElem (by simp [mixFrame]) fun i h1 h2 => ?_
  have wf := hl _ (List.getElem_mem h2)
  obtain ⟨⟨⟨left, left'⟩, right⟩, right'⟩ : ((-8388608 ≤ l[i].1 ∧ l[i].1 ≤ 8388607) ∧ -8388608 ≤ l[i].2) ∧
      l[i].2 ≤ 8388607 := by simpa [sampleWf] using wf
  have sample : l.getD i (0, 0) = l[i] := by simp [h2]
  simp only [mixFrame, List.getElem_map, List.getElem_range, Gain.at_of_settled hp, Gain.at_of_settled hr, htp, htr,
    sample, List.getD_nil, mixSample_unaltered ⟨left, left'⟩, mixSample_unaltered ⟨right, right'⟩]

/-- The composer's work on a passthrough frame of a valid PGM-x, with settled gains (R135, R139, R142 to R144). -/
theorem ChannelState.compose_passthrough {c : ChannelState} {rate : FrameRate} {inp : FrameInputs}
    (hv : inputValid rate inp.pgm = true) (hn : inp.pgm.pair1.length = frameSamples rate inp)
    (hl : ∀ x ∈ inp.pgm.pair1, sampleWf x = true) (hp : c.composer.gP.position = none)
    (htp : c.composer.gP.target = 65536) (hr : c.composer.gR.position = none) (htr : c.composer.gR.target = 0) :
    c.compose rate inp .passthrough =
      { c with
        composer :=
          { c.composer with
            pgmHold := { counter := 0, picture := some inp.pgm.picture }
            promoHold := { counter := 0, picture := none }
            gP :=
              { c.composer.gP with present := if frameSamples rate inp = 0 then c.composer.gP.present else 65536 }
            gR := { c.composer.gR with present := if frameSamples rate inp = 0 then c.composer.gR.present else 0 } }
        output :=
          { passed := []
            built :=
              some
                { picture := inp.pgm.picture, pair1 := inp.pgm.pair1, otherPairs := inp.pgm.otherPairs
                  anc := c.output.passed ++ inp.pgm.activeAnc }
            leaving := c.output.leaving } } := by
  have aims : gainTargets .passthrough = (65536, 0) := rfl
  have promo (h : Hold) : drawPromo rate inp .passthrough h = drawAbsent := rfl
  have audio : promoAudio rate inp .passthrough = [] := rfl
  have programme : programmeAudio rate inp = inp.pgm.pair1 := if_pos hv
  have picture (p q : Picture) : composePicture .passthrough p q = p := rfl
  have mixed : mixFrame (frameSamples rate inp) c.composer.gP c.composer.gR inp.pgm.pair1 [] = inp.pgm.pair1 := by
    rw [← hn]
    exact mixFrame_unaltered hp htp hr htr hl
  simp only [ChannelState.compose, Composer.retargeted, aims, Gain.retarget_same htp, Gain.retarget_same htr,
    Gain.after_of_settled hp, Gain.after_of_settled hr, htp, htr, drawProgramme_passthrough hv, promo, drawAbsent,
    Hold.clear, audio, programme, picture, mixed, hv, if_true, Bool.or_self, Reporter.raiseIf_false]

end

/-- Settles O55: the junction's work and the sweep leave the state as it stands, and the composer copies PGM-x. -/
theorem idleFramesPassThrough : Obligations.IdleFramesPassThrough := by
  intro ch inp s c g n idle entries context arm valid samples wf targetP settledP targetR settledR
  have found := State.atFrame_of_quiet inp context arm
  have junction : junctionFrame ch (s.frameValidity inp) (s.atFrame ch inp) = (s.judge inp.promo, .passthrough) := by
    rw [found]
    exact junctionFrame_of_idle _ idle
  have settled : s.frameSettled ch inp = s.judge inp.promo := by
    rw [State.frameSettled, junction]
    exact sweep_of_empty entries
  have view : s.frameView ch inp = .passthrough := by rw [State.frameView, junction]
  have composed := ChannelState.compose_passthrough (c := c) (rate := s.ref.rate) (inp := s.inputs inp) valid samples wf
    settledP targetP settledR targetR
  have channel : s.frameChannel ch inp = c.compose s.ref.rate (s.inputs inp) .passthrough := by
    rw [State.frameChannel, settled, view]
    rfl
  have own := s.framed_own ch inp
  rw [← s.statusPacket_reported, channel, composed] at own
  have tail := s.framed_tail ch inp
  rw [settled] at tail
  exact ⟨_, _, exec_channelFrameEvent ch inp s, rfl, tail.rest, own, tail.others⟩

end Sys2Proof.Machine
end


section
/-!
PROOFS. The turn of a running junction, and the frame it hands the composer: the view of a channel frame event is that of
the state the event leaves, but for the last frame of a RELEASE.
-/

namespace Sys2Proof.Machine

/-! ### The turn of a running junction -/

section
variable {c : ChannelState} {v : PromoValidity}

/-- The engine's result with the items remaining judged on the list with the successor started. -/
def ChannelState.playedResult (c : ChannelState) (v : PromoValidity) : EngineResult :=
  c.engine.work (c.promo.work c.engine.state true v).1.itemsRemain c.emptyList

/-- The engine's result with the items remaining judged on the list with no successor started. -/
def ChannelState.stayedResult (c : ChannelState) (v : PromoValidity) : EngineResult :=
  c.engine.work (c.promo.work c.engine.state false v).1.itemsRemain c.emptyList

theorem ChannelState.turn_of_uncut (h : (c.playedResult v).ending.isCut = false) :
    c.turn v =
      { list := (c.promo.work c.engine.state true v).1, report := (c.promo.work c.engine.state true v).2
        result := c.playedResult v, carriesPromo := true } :=
  if_neg (ne_true_of_eq_false h)

theorem ChannelState.turn_of_cut (h : (c.playedResult v).ending.isCut = true)
    (h' : ((c.stayedResult v).ending.isCut || Config.restoresOnDoomedSuccessor) = true) :
    c.turn v =
      { list := (c.promo.work c.engine.state false v).1, report := (c.promo.work c.engine.state false v).2
        result := c.playedResult v, carriesPromo := false } :=
  (if_pos h).trans (if_pos h')

theorem ChannelState.turn_of_spared (h : (c.playedResult v).ending.isCut = true)
    (h' : ((c.stayedResult v).ending.isCut || Config.restoresOnDoomedSuccessor) = false) :
    c.turn v =
      { list := (c.promo.work c.engine.state true v).1, report := (c.promo.work c.engine.state true v).2
        result := c.stayedResult v, carriesPromo := true } :=
  (if_pos h).trans (if_neg (ne_true_of_eq_false h'))

end

/-! ### The engine's work in RELEASE -/

section
variable {e : Engine} {items emptyList : Bool}

theorem Engine.work_of_release_last (hs : e.state = .release) (hk : e.m ≤ e.k + 1) :
    e.work items emptyList = { engine := e.advance, ending := .ends .completedRestore, tookCause := false } := by
  simp only [Engine.work, hs, Engine.advance_m, Engine.advance_k, if_pos hk]

theorem Engine.work_of_release_on (hs : e.state = .release) (hk : e.k + 1 < e.m) :
    e.work items emptyList = { engine := e.advance, ending := .goes, tookCause := false } := by
  simp only [Engine.work, hs, Engine.advance_m, Engine.advance_k, if_neg (not_le_of_gt hk)]

/-- Only the last event of a RELEASE ends the junction with the frame built (R41). -/
theorem Engine.work_ends {o : JunctionOutcome} (h : (e.work items emptyList).ending = .ends o) :
    e.state = .release ∧ e.m ≤ e.k + 1 := by
  have acts (c : EndCause) : (e.act c items).ending ≠ .ends o := by
    rcases e.act_cases c items with act | act | ⟨-, act⟩ <;> rw [act] <;> exact FrameEnd.noConfusion
  unfold Engine.work at h
  dsimp only at h
  cases hs : e.state with
  | idle | armed => simp [hs] at h
  | squeeze | held =>
    cases hc : e.causeAt with
    | some c =>
      simp only [hs, hc] at h
      exact absurd h (acts c)
    | none => simp [hs, hc] at h
  | release =>
    by_cases hk : e.m ≤ e.k + 1
    · exact ⟨rfl, hk⟩
    · simp [hs, hk] at h
  | takeover =>
    simp only [hs] at h
    split at h
    · cases h
    · split at h <;> cases h
  | promoFull =>
    simp only [hs] at h
    split at h <;> cases h

end

/-! ### Views -/

theorem ChannelState.view_of_outside {c : ChannelState} (h : c.engine.state = .idle ∨ c.engine.state = .armed) :
    c.view = .passthrough := by
  unfold ChannelState.view
  rcases h with h | h <;> rw [h]

theorem ChannelState.view_of_running {c : ChannelState} (hi : c.engine.state ≠ .idle) (ha : c.engine.state ≠ .armed) :
    c.view =
      { state := c.engine.state, pgm := c.engine.pgmRect, promo := c.engine.promoRect, item := c.promo.current
        look := c.composer.look } := by
  unfold ChannelState.view
  cases hs : c.engine.state with
  | idle => exact absurd hs hi
  | armed => exact absurd hs ha
  | squeeze | held | release | takeover | promoFull => rfl

/-- What a view is drawn from. -/
theorem ChannelState.view_congr {c d : ChannelState} (he : d.engine = c.engine) (hp : d.promo = c.promo)
    (hl : d.composer.look = c.composer.look) : d.view = c.view := by
  unfold ChannelState.view
  rw [he, hp, hl]

theorem missSweep_view (ch : Channel) (s : State) : ((missSweep ch s).chan ch).view = (s.chan ch).view := by
  rw [missSweep, missUnless_eq, State.chan_modChan_same]
  exact ChannelState.view_congr rfl rfl rfl

theorem State.framed_view (s : State) (ch : Channel) (inp : FrameInputs) :
    ((s.framed ch inp).chan ch).view =
      ((armTest ch (junctionFrame ch (s.frameValidity inp) (s.atFrame ch inp)).1).chan ch).view := by
  obtain ⟨-, -, own, look, -⟩ := s.framed_tail ch inp
  exact (ChannelState.view_congr (by rw [own]) (by rw [own]) look).trans (missSweep_view ch _)

/-- After a junction end the channel is IDLE or ARMED, and its frame is passthrough (R45, R135). -/
theorem junctionEnd_view {ch : Channel} {s : State} (o : JunctionOutcome) (h : (s.chan ch).engine.record.isSome) :
    ((armTest ch (junctionEnd ch o s)).chan ch).view = .passthrough := by
  obtain ⟨r, hr⟩ := Option.isSome_iff_exists.1 h
  rw [junctionEnd, endWith_eq o _ hr, armTest_armTest]
  refine ChannelState.view_of_outside ?_
  rcases armTest_cases ch (s.ended ch ChannelState.spendBank (r.last o)) with armed | ⟨same, -⟩
  · exact .inr armed
  · rw [same, State.ended_chan]
    exact .inl rfl

/-! ### The frame handed to the composer -/

section
variable {c : ChannelState} {v : PromoValidity}

theorem PromoList.countReleasing_current (v : PromoValidity) (p : PromoList) :
    (p.countReleasing v).current = p.current := by
  unfold PromoList.countReleasing
  split
  · rename_i cur it hcur hit
    split
    · have index : ((cur.tick (it.source.valid v)).index) = cur.index := by
        unfold Cursor.tick
        split <;> rfl
      unfold PromoList.current PromoList.setCursor
      dsimp only
      rw [hcur]
      cases p.play.bank with
      | none => rfl
      | some b =>
        dsimp only
        rw [index]
        cases b <;> rfl
    · rfl
  · rfl

/-- The channel after the last event of a RELEASE, before the junction ends (R41, R81). -/
theorem ChannelState.runOn_of_release_last (hs : c.engine.state = .release) (hk : c.engine.m ≤ c.engine.k + 1) :
    (c.turn v).result.ending = .ends .completedRestore ∧
      (c.runOn v).1 =
        { c with
          engine := c.engine.advance, tally := EngineState.tally .release, promo := c.promo.countReleasing v } := by
  have result : c.playedResult v =
      { engine := c.engine.advance, ending := .ends .completedRestore, tookCause := false } :=
    Engine.work_of_release_last hs hk
  have list : c.promo.work c.engine.state true v = (c.promo.countReleasing v, .none) := by rw [hs]; rfl
  have turn := ChannelState.turn_of_uncut (c := c) (v := v) (by rw [result]; rfl)
  rw [result, list] at turn
  refine ⟨by rw [turn], ?_⟩
  rw [ChannelState.runOn_fst, turn]
  simp [ChannelState.takeList, ChannelState.withList, ChannelState.withEngine, Turn.marks, ListReport.none,
    ChannelState.markIf, hs]

theorem ChannelState.view_of_release_last (hs : c.engine.state = .release) (hk : c.engine.m ≤ c.engine.k + 1) :
    (c.runOn v).1.view =
      { state := .release
        pgm := c.engine.advance.pgmRect, promo := c.engine.advance.promoRect, item := c.promo.current
        look := c.composer.look } := by
  have state : c.engine.advance.state = .release := by rw [Engine.advance_state, hs]
  rw [(ChannelState.runOn_of_release_last hs hk).2, ChannelState.view_of_running (by rw [state]; decide)
    (by rw [state]; decide), state, PromoList.countReleasing_current]

end

section
variable {ch : Channel} {s : State} {v : PromoValidity}

theorem startEvent_cut (hr : (s.chan ch).engine.record.isSome) {o : JunctionOutcome}
    (hg : (startEvent ch s).2 = .cut o) : ((startEvent ch s).1.chan ch).engine.record.isSome := by
  obtain ⟨r, hr⟩ := Option.isSome_iff_exists.1 hr
  have record := claimed_record hr
  rcases startEvent_cases ch s with ⟨none, -⟩ | ⟨x, hx, ⟨-, he⟩ | ⟨-, he⟩⟩
  · cases none.symm.trans record
  · rw [he, State.raise, State.modReporter, State.chan_modChan_same, record]
    rfl
  · rw [he] at hg
    cases hg

/-- The view of a channel frame event is that of the state the arm test leaves, but for the last frame of a RELEASE
(R41, R135). -/
theorem junctionFrame_view (hr : (s.chan ch).engine.state ≠ .idle → (s.chan ch).engine.record.isSome)
    (hl : ¬ ((s.chan ch).engine.state = .release ∧ (s.chan ch).engine.m ≤ (s.chan ch).engine.k + 1)) :
    (junctionFrame ch v s).2 = ((armTest ch (junctionFrame ch v s).1).chan ch).view := by
  have outside {t : State} (h : (t.chan ch).engine.state = .idle ∨ (t.chan ch).engine.state = .armed) :
      ((armTest ch t).chan ch).view = .passthrough := by
    refine ChannelState.view_of_outside ?_
    rcases armTest_cases ch t with armed | ⟨same, -⟩
    · exact .inr armed
    · rwa [same]
  by_cases hi : (s.chan ch).engine.state = .idle
  · rw [junctionFrame_of_idle v hi]
    exact (outside (.inl hi)).symm
  by_cases ha : (s.chan ch).engine.state = .armed
  · unfold junctionFrame
    rw [ha]
    dsimp only
    split
    · split
      · rename_i due _ t he
        have goes := startEvent_goes he (startDue_record due)
        have busy : ((t.modChan ch (·.countItem v)).chan ch).engine.state ≠ .idle := by
          rw [State.chan_modChan_same]
          rcases goes with hst | hst <;> simp [hst]
        dsimp only
        rw [armTest_of_busy busy]
      · rename_i t fe hne he
        cases fe with
        | goes => exact absurd rfl hne
        | cut o =>
          have record := startEvent_cut (hr hi) (congrArg Prod.snd he)
          rw [he] at record
          exact (junctionEnd_view o record).symm
        | ends o =>
          rcases startEvent_cases ch s with ⟨_, hs⟩ | ⟨_, _, ⟨_, hs⟩ | ⟨_, hs⟩⟩ <;> cases he.symm.trans hs
    · exact (outside (.inr ha)).symm
  · obtain ⟨items, result⟩ := (s.chan ch).turn_result v
    have record : ((s.setChan ch ((s.chan ch).runOn v).1).chan ch).engine.record.isSome := by
      rw [State.chan_setChan_same]
      refine (ChannelState.listed_record_isSome ((s.chan ch).withEngine ((s.chan ch).turn v).result.engine) ..).trans ?_
      refine (congrArg (fun e : EngineResult => e.engine.record.isSome) result).trans ?_
      rw [Engine.work_record_isSome]
      exact hr hi
    have ran : (s.chan ch).runOn v = (((s.chan ch).runOn v).1, ((s.chan ch).turn v).result.ending) := rfl
    unfold junctionFrame
    split
    · exact absurd ‹_› hi
    · exact absurd ‹_› ha
    · rw [ran]
      cases hg : ((s.chan ch).turn v).result.ending with
      | goes =>
        have busy : ((s.setChan ch ((s.chan ch).runOn v).1).chan ch).engine.state ≠ .idle := by
          rw [State.chan_setChan_same, ChannelState.runOn_engine_state, result]
          exact fun h => hi (Engine.work_idle ha h)
        dsimp only
        rw [armTest_of_busy busy, State.chan_setChan_same]
      | cut o => exact (junctionEnd_view o record).symm
      | ends o =>
        rw [result] at hg
        exact absurd (Engine.work_ends hg) hl

theorem junctionFrame_view_of_release_last (hs : (s.chan ch).engine.state = .release)
    (hk : (s.chan ch).engine.m ≤ (s.chan ch).engine.k + 1) :
    (junctionFrame ch v s).2 = ((s.chan ch).runOn v).1.view := by
  have ran : (s.chan ch).runOn v = (((s.chan ch).runOn v).1, .ends .completedRestore) :=
    congrArg (Prod.mk _) (ChannelState.runOn_of_release_last hs hk).1
  unfold junctionFrame
  split
  · rename_i h
    cases hs.symm.trans h
  · rename_i h
    cases hs.symm.trans h
  · rw [ran]

end

/-- What the composer is handed at a channel frame event (R41, R134, R135). -/
theorem State.frameView_eq_handed {s : State} {ch : Channel} (hr : s.RecordPresent ch) (inp : FrameInputs) :
    s.frameView ch inp = State.handed ch inp s (s.framed ch inp) := by
  have found : ((s.atFrame ch inp).chan ch).engine = (s.chan ch).engine := by
    rw [s.atFrame_chan, ChannelState.frameCounted_engine]
  unfold State.handed
  dsimp only
  split
  · rename_i h
    refine ((junctionFrame_view_of_release_last h.1 h.2).trans (ChannelState.view_of_release_last h.1 h.2)).trans ?_
    unfold Engine.advance Engine.showMove
    cases ((s.atFrame ch inp).chan ch).engine.move <;> rfl
  · rename_i h
    rw [State.framed_view]
    exact junctionFrame_view (by rw [found]; exact hr) h

end Sys2Proof.Machine
end


section
/-!
PROOFS. The picture of a frame (O57): what is painted at a point, and the sample of each window there.
-/

namespace Sys2Proof.Machine

/-! ### What a channel frame event builds -/

/-- The frame a channel frame event builds and the composer it leaves, drawn from a view by the composer the event
finds. -/
structure FrameBuilt (rate : FrameRate) (inp : FrameInputs) (view : FrameView) (c : ChannelState) (d : ChannelState)
    (f : OutFrame) : Prop where
  built : d.output.built = some f
  picture :
    f.picture =
      composePicture view (drawProgramme rate inp view c.composer.pgmHold).picture
        (drawPromo rate inp view c.composer.promoHold).picture
  pair1 :
    f.pair1 =
      mixFrame (frameSamples rate inp) (c.composer.gP.retarget (gainTargets view).1)
        (c.composer.gR.retarget (gainTargets view).2) (programmeAudio rate inp) (promoAudio rate inp view)
  otherPairs : f.otherPairs = if inputValid rate inp.pgm then inp.pgm.otherPairs else []
  pgmHold : d.composer.pgmHold = (drawProgramme rate inp view c.composer.pgmHold).hold
  promoHold : d.composer.promoHold = (drawPromo rate inp view c.composer.promoHold).hold
  gP : d.composer.gP = (c.composer.gP.retarget (gainTargets view).1).after (frameSamples rate inp)
  gR : d.composer.gR = (c.composer.gR.retarget (gainTargets view).2).after (frameSamples rate inp)

theorem State.framed_built (s : State) (ch : Channel) (inp : FrameInputs) :
    ∃ f, FrameBuilt s.ref.rate (s.inputs inp) (s.frameView ch inp) (s.chan ch) ((s.framed ch inp).chan ch) f := by
  have found := (s.atFrame_beside ch inp).2.1
  have beside := (standsBeside_frameSettled s ch inp).composer
  rw [found] at beside
  have pgmHold := congrArg Composer.pgmHold beside
  have promoHold := congrArg Composer.promoHold beside
  have gP := congrArg Composer.gP beside
  have gR := congrArg Composer.gR beside
  dsimp only at pgmHold promoHold gP gR
  rw [s.framed_own, State.frameChannel]
  refine ⟨_, rfl, ?_, ?_, rfl, ?_, ?_, ?_, ?_⟩
  · rw [← pgmHold, ← promoHold]
  · rw [← gP, ← gR]
    rfl
  · rw [← pgmHold]
    rfl
  · rw [← promoHold]
    rfl
  · rw [← gP]
    rfl
  · rw [← gR]
    rfl

/-! ### Planes -/

theorem planeAt_makePlane {width height i j : Nat} (f : Nat → Nat → Nat) (hi : i < width) (hj : j < height) :
    planeAt (makePlane width height f) i j = f i j := by
  simp [planeAt, makePlane, hi, hj]

section
variable {x : Component} {i j : Nat}

theorem plane_makePicture {w h : Nat} (sample : Component → Nat → Nat → Nat) (hw : w % 2 = 0) (hi : i * x.scale < w)
    (hj : j < h) : planeAt (x.plane (makePicture w h (sample .luma) (sample .cb) (sample .cr))) i j = sample x i j := by
  cases x with
  | luma =>
    rw [Component.scale, Nat.mul_one] at hi
    exact planeAt_makePlane (sample .luma) hi hj
  | cb =>
    rw [Component.scale] at hi
    exact planeAt_makePlane (width := w / 2) (sample .cb) (by omega) hj
  | cr =>
    rw [Component.scale] at hi
    exact planeAt_makePlane (width := w / 2) (sample .cr) (by omega) hj

theorem plane_fieldOf (c : Colour) {w h : Nat} (hw : w % 2 = 0) (hi : i * x.scale < w) (hj : j < h) :
    planeAt (x.plane (fieldOf c w h)) i j = x.of c :=
  plane_makePicture (fun x _ _ => x.of c) hw hi hj

theorem plane_repeatPicture (p : Picture) {r : Rect} (hw : r.w % 2 = 0) (hi : i * x.scale < r.w) (hj : j < r.h) :
    planeAt (x.plane (repeatPicture r p)) i j = planeAt (x.plane p) (i * p.width / r.w) (j * p.height / r.h) :=
  plane_makePicture (fun x i j => planeAt (x.plane p) (i * p.width / r.w) (j * p.height / r.h)) hw hi hj

theorem plane_composePicture {view : FrameView} (hs : view.state ≠ .idle) (p q : Picture) (hi : i * x.scale < 1920)
    (hj : j < 1080) :
    planeAt (x.plane (composePicture view p q)) i j =
      composeSample view (x.plane p) (x.plane q) (x.of view.look.backing) (x.of view.look.borderColour) x.scale i j := by
  have sampled := plane_makePicture (fun x => composeSample view (x.plane p) (x.plane q) (x.of view.look.backing)
    (x.of view.look.borderColour) x.scale) (show 1920 % 2 = 0 from rfl) hi hj
  rw [composePicture, if_neg hs]
  exact sampled

/-! ### The samples of a window -/

/-- A window on an input shows the input, its hold picture, or the backing colour (R138 to R141). -/
theorem plane_drawInput (valid : Bool) (src : Picture) {r : Rect} (backing : Colour) (h : Hold) (hw : r.w % 2 = 0)
    (hi : i * x.scale < r.w) (hj : j < r.h) :
    planeAt (x.plane (drawInput valid src r backing h).picture) i j = heldSample x valid src r backing h i j := by
  unfold drawInput heldSample
  split
  · rfl
  · have held : h.next < Config.holdLimit ↔ h.counter + 1 < 6 := by
      show min (h.counter + 1) 6 < 6 ↔ _
      omega
    by_cases hh : h.counter + 1 < 6
    · rw [if_pos hh]
      dsimp only
      rw [if_pos (held.2 hh)]
      cases h.picture with
      | none => exact plane_fieldOf backing hw hi hj
      | some q => exact plane_repeatPicture q hw hi hj
    · rw [if_neg hh]
      dsimp only
      rw [if_neg fun k => hh (held.1 k)]
      exact plane_fieldOf backing hw hi hj

end

section
variable {rate : FrameRate} {inp : FrameInputs} {view : FrameView} {r : Rect}

theorem drawPromo_of_backing (hr : view.promo = some r) (hn : namedInput inp.promo view.item = none) (h : Hold) :
    drawPromo rate inp view h = drawBacking r view.look.backing := by
  unfold namedInput at hn
  unfold drawPromo
  rw [hr]
  cases hi : view.item.map Item.source with
  | none => rfl
  | some source => cases source <;> simp_all

theorem drawPromo_of_input {g : InputFrame} (hr : view.promo = some r) (hn : namedInput inp.promo view.item = some g)
    (h : Hold) :
    drawPromo rate inp view h = drawInput (inputValid rate g) g.picture r view.look.backing h := by
  unfold namedInput at hn
  unfold drawPromo
  rw [hr]
  cases hi : view.item.map Item.source with
  | none => simp [hi] at hn
  | some source => cases source <;> simp_all

end

/-! ### What is painted at a point -/

theorem contains_iff (r : Rect) (column line : Nat) : Rect.contains r column line = true ↔ Rect.Inside r column line := by
  simp [Rect.contains, Rect.Inside, and_assoc]

theorem inRing_iff {column line : Nat} (hc : column < 1920) (hl : line < 1080) (width : Nat) (r : Rect) :
    inRing width r column line = true ↔ Rect.InRing r width column line := by
  have inFrame : Rect.contains fullFrame column line = true := (contains_iff ..).2 ⟨Nat.zero_le _, by simpa [fullFrame] using hc,
    Nat.zero_le _, by simpa [fullFrame] using hl⟩
  have outside : (!Rect.contains r column line) = true ↔ ¬ Rect.Inside r column line := by
    rw [← contains_iff, Bool.not_eq_true', Bool.not_eq_true]
  rw [inRing, inFrame, Bool.and_true]
  simp only [Bool.and_eq_true, decide_eq_true_eq, outside, and_assoc]
  exact .rfl

theorem insideWindow_iff (w : Option Rect) (column line : Nat) :
    insideWindow w column line = true ↔ ∃ r, w = some r ∧ Rect.Inside r column line := by
  cases w with
  | none => simp [insideWindow]
  | some r => simp [insideWindow, contains_iff]

theorem insideWindow_eq_false {w : Option Rect} {column line : Nat}
    (h : ∀ r, w = some r → ¬ Rect.Inside r column line) : insideWindow w column line = false := by
  rw [← Bool.not_eq_true, insideWindow_iff]
  rintro ⟨r, hr, inside⟩
  exact h r hr inside

theorem insideRing_iff {column line : Nat} (hc : column < 1920) (hl : line < 1080) (view : FrameView) :
    insideRing view column line = true ↔ ∃ r, view.pgm = some r ∧ Rect.InRing r view.look.borderWidth column line := by
  unfold insideRing
  cases view.pgm with
  | none => simp
  | some r => simp [inRing_iff hc hl]

section
variable {view : FrameView} {column line : Nat}

theorem paintAt_programme (hp : insideWindow view.pgm column line = true)
    (ht : view.look.layering ≠ some .promoOnTop ∨ insideWindow view.promo column line = false)
    (hr : insideRing view column line = false) : paintAt view column line = .programme := by
  unfold paintAt
  dsimp only
  split
  · rename_i top
    simp [hp, hr, ht.resolve_left (not_not_intro top)]
  · simp [hp]

theorem paintAt_promo (hq : insideWindow view.promo column line = true)
    (ht : view.look.layering = some .promoOnTop ∨
      insideWindow view.pgm column line = false ∧ insideRing view column line = false) :
    paintAt view column line = .promo := by
  unfold paintAt
  dsimp only
  split
  · simp [hq]
  · rename_i bottom
    obtain ⟨hp, hr⟩ := ht.resolve_left fun top => bottom top
    simp [hp, hr, hq]

theorem paintAt_border (hr : insideRing view column line = true) (hp : insideWindow view.pgm column line = false)
    (ht : view.look.layering = some .promoOnTop → insideWindow view.promo column line = false) :
    paintAt view column line = .border := by
  unfold paintAt
  dsimp only
  split
  · rename_i top
    simp [hr, ht top]
  · simp [hp, hr]

theorem paintAt_backing (hr : insideRing view column line = false) (hp : insideWindow view.pgm column line = false)
    (hq : insideWindow view.promo column line = false) : paintAt view column line = .backing := by
  unfold paintAt
  dsimp only
  split <;> simp [hr, hp, hq]

end

/-! ### The samples of a frame -/

section
variable {view : FrameView} {x : Component} {i j : Nat} {p q : Array (Array Nat)} {backing border : Nat}

theorem composeSample_programme {r : Rect} (hr : view.pgm = some r)
    (hp : paintAt view (i * x.scale) j = .programme) :
    composeSample view p q backing border x.scale i j = planeAt p ((i * x.scale - r.x) / x.scale) (j - r.y) := by
  simp only [composeSample, hp, hr]

theorem composeSample_promo {r : Rect} (hr : view.promo = some r) (hp : paintAt view (i * x.scale) j = .promo) :
    composeSample view p q backing border x.scale i j = planeAt q ((i * x.scale - r.x) / x.scale) (j - r.y) := by
  simp only [composeSample, hp, hr]

theorem composeSample_border (hp : paintAt view (i * x.scale) j = .border) :
    composeSample view p q backing border x.scale i j = border := by
  simp only [composeSample, hp]

theorem composeSample_backing (hp : paintAt view (i * x.scale) j = .backing) :
    composeSample view p q backing border x.scale i j = backing := by
  simp only [composeSample, hp]

/-- The sample of a window at a point inside it is one of the window's own (R138). -/
theorem inside_sample {r : Rect} (h : Rect.Inside r (i * x.scale) j) :
    (i * x.scale - r.x) / x.scale * x.scale < r.w ∧ j - r.y < r.h := by
  obtain ⟨left, right, top, bottom⟩ := h
  have whole := Nat.div_mul_le_self (i * x.scale - r.x) x.scale
  omega

end

/-- A view is passthrough where its state is IDLE, as every view a channel's blocks hand is (R134, R135). -/
theorem State.handed_of_idle {ch : Channel} {inp : FrameInputs} {s t : State}
    (h : (State.handed ch inp s t).state = .idle) : State.handed ch inp s t = .passthrough := by
  unfold State.handed at h ⊢
  dsimp only at h ⊢
  split at h
  · cases h
  · rename_i hn
    rw [if_neg hn]
    refine ChannelState.view_of_outside ?_
    by_contra out
    rw [not_or] at out
    rw [ChannelState.view_of_running out.1 out.2] at h
    exact out.1 h

/-- Settles O57: the paint at a point names the window, and the window's own sample there is drawn from its source. -/
theorem framesArePainted : Obligations.FramesArePainted := by
  intro ch inp s present
  obtain ⟨f, built⟩ := s.framed_built ch inp
  rw [State.frameView_eq_handed present inp] at built
  refine ⟨_, f, exec_channelFrameEvent ch inp s, built.built, ?_⟩
  intro view read look pgmValid source
  have picture : f.picture =
      composePicture view (drawProgramme s.ref.rate read view (s.chan ch).composer.pgmHold).picture
        (drawPromo s.ref.rate read view (s.chan ch).composer.promoHold).picture := built.picture
  refine ⟨windowPicture_fullFrame _, fun idle valid => ?_, fun drawable drawable' x i j hi hj => ?_⟩
  · have passthrough : view = .passthrough := State.handed_of_idle idle
    rw [picture, composePicture, if_pos idle, passthrough, drawProgramme_passthrough valid]
  · intro column shown promoOnTop pgm promo
    have programmeSample {r : Rect} (hr : view.pgm = some r) (inside : Rect.Inside r column j) :
        planeAt (x.plane (drawProgramme s.ref.rate read view (s.chan ch).composer.pgmHold).picture)
          ((column - r.x) / x.scale) (j - r.y) = pgm r := by
      have drawn : drawProgramme s.ref.rate read view (s.chan ch).composer.pgmHold =
          drawInput pgmValid read.pgm.picture r look.backing (s.chan ch).composer.pgmHold := by
        unfold drawProgramme
        rw [hr]
      obtain ⟨hw, hh⟩ := inside_sample inside
      rw [drawn]
      exact plane_drawInput _ _ _ _ (drawable r hr).2.2.2.1 hw hh
    have promoSample {q : Rect} (hq : view.promo = some q) (inside : Rect.Inside q column j) :
        planeAt (x.plane (drawPromo s.ref.rate read view (s.chan ch).composer.promoHold).picture)
          ((column - q.x) / x.scale) (j - q.y) = promo q := by
      obtain ⟨hw, hh⟩ := inside_sample inside
      cases hn : namedInput read.promo view.item with
      | none =>
        rw [drawPromo_of_backing hq hn]
        exact (plane_fieldOf look.backing (drawable' q hq).2.2.2.1 hw hh).trans (by simp only [promo, source, hn])
      | some g =>
        rw [drawPromo_of_input hq hn]
        exact (plane_drawInput _ _ _ _ (drawable' q hq).2.2.2.1 hw hh).trans (by simp only [promo, source, hn]; rfl)
    by_cases idle : view.state = .idle
    · have passthrough : view = .passthrough := State.handed_of_idle idle
      have full : view.pgm = some fullFrame := by rw [passthrough]; rfl
      have inside : Rect.Inside fullFrame column j :=
        ⟨Nat.zero_le _, by simpa [fullFrame] using hi, Nat.zero_le _, by simpa [fullFrame] using hj⟩
      have copied : shown = pgm fullFrame := by
        rw [← programmeSample full inside]
        have same : (column - fullFrame.x) / x.scale = i := by
          have positive : 0 < x.scale := by cases x <;> decide
          exact Nat.mul_div_cancel i positive
        rw [same]
        simp only [shown, picture, composePicture, if_pos idle]
        rfl
      refine ⟨fun r hr _ _ => ?_, fun q hq => ?_, fun r hr ring => ?_, fun out => ?_⟩
      · rw [copied, Option.some.inj (full.symm.trans hr)]
      · rw [passthrough] at hq
        cases hq
      · rw [← Option.some.inj (full.symm.trans hr)] at ring
        exact absurd inside ring.2.2.2.2
      · exact absurd inside (out fullFrame full).1
    · have sampled : shown = _ := (congrArg (fun p => planeAt (x.plane p) i j) picture).trans
        (plane_composePicture (view := view) idle _ _ hi hj)
      have ringed := insideRing_iff hi hj view
      refine ⟨fun r hr inside under => ?_, fun q hq inside above => ?_, fun r hr ring under => ?_, fun outP outQ => ?_⟩
      · have paint : paintAt view column j = .programme := by
          refine paintAt_programme ((insideWindow_iff ..).2 ⟨r, hr, inside⟩) (under.imp_right insideWindow_eq_false) ?_
          rw [← Bool.not_eq_true, ringed]
          rintro ⟨r', hr', ring⟩
          rw [Option.some.inj (hr'.symm.trans hr)] at ring
          exact ring.2.2.2.2 inside
        rw [sampled, composeSample_programme hr paint, programmeSample hr inside]
      · have paint : paintAt view column j = .promo := by
          refine paintAt_promo ((insideWindow_iff ..).2 ⟨q, hq, inside⟩) (above.imp_right fun out => ?_)
          refine ⟨insideWindow_eq_false fun r hr => (out r hr).1, ?_⟩
          rw [← Bool.not_eq_true, ringed]
          rintro ⟨r, hr, ring⟩
          exact (out r hr).2 ring
        rw [sampled, composeSample_promo hq paint, promoSample hq inside]
      · have paint : paintAt view column j = .border := by
          refine paintAt_border (ringed.2 ⟨r, hr, ring⟩) (insideWindow_eq_false fun r' hr' => ?_) fun top =>
            insideWindow_eq_false (under top)
          rw [Option.some.inj (hr'.symm.trans hr)]
          exact ring.2.2.2.2
        rw [sampled, composeSample_border paint]
      · have paint : paintAt view column j = .backing := by
          refine paintAt_backing ?_ (insideWindow_eq_false fun r hr => (outP r hr).1) (insideWindow_eq_false outQ)
          rw [← Bool.not_eq_true, ringed]
          rintro ⟨r, hr, ring⟩
          exact (outP r hr).2 ring
        rw [sampled, composeSample_backing paint]

end Sys2Proof.Machine
end


section
/-!
PROOFS. The mix and the holds of a frame (O58, O59): the gains, pair 1, and the hold of each window.
-/

namespace Sys2Proof.Machine

/-! ### Gains -/

theorem Gain.retarget_eq_aimed (g : Gain) (target : Nat) : g.retarget target = g.aimed target := by
  unfold Gain.retarget Gain.aimed Gain.startValue
  split
  · rfl
  · cases g.position <;> rfl

theorem Gain.at_eq_sample (g : Gain) (i : Nat) : g.at i = g.sample i := by
  unfold Gain.at Gain.sample
  cases g.position <;> rfl

theorem Gain.after_eq_mixed (g : Gain) (n : Nat) : g.after n = g.mixed n := by
  unfold Gain.after Gain.mixed
  rw [Gain.at_eq_sample]
  cases g.position <;> rfl

theorem mixSample_eq_mixed (p r : Int) (gP gR : Nat) : mixSample p r gP gR = mixed p r gP gR := by
  unfold mixSample mixed
  dsimp only
  split
  · omega
  · split <;> omega

/-- Pair 1 of a frame, sample by sample (R144). -/
theorem mixFrame_getElem? {n i : Nat} (gP gR : Gain) (p r : List Sample) (hi : i < n) :
    (mixFrame n gP gR p r)[i]? =
      some
        (mixed (p.getD i (0, 0)).1 (r.getD i (0, 0)).1 (gP.sample i) (gR.sample i),
          mixed (p.getD i (0, 0)).2 (r.getD i (0, 0)).2 (gP.sample i) (gR.sample i)) := by
  simp [mixFrame, hi, Gain.at_eq_sample, mixSample_eq_mixed]

/-! ### Targets -/

theorem codeGain_eq (code : Nat) :
    codeGain code = if code = 0 then 65536 else if code = 1 then 32768 else if code = 2 then 16384 else 0 := by
  match code with
  | 0 | 1 | 2 => rfl
  | n + 3 => simp [codeGain]

theorem State.handed_state_ne_armed (ch : Channel) (inp : FrameInputs) (s t : State) :
    (State.handed ch inp s t).state ≠ .armed := by
  unfold State.handed
  dsimp only
  split
  · exact EngineState.noConfusion
  · by_cases out : (t.chan ch).engine.state = .idle ∨ (t.chan ch).engine.state = .armed
    · rw [ChannelState.view_of_outside out]
      exact EngineState.noConfusion
    · rw [not_or] at out
      rw [ChannelState.view_of_running out.1 out.2]
      exact out.2

/-- The targets of a frame are those R142 gives. -/
theorem gainTargets_of_aimsAt {view : FrameView} {aP aR : Nat} (h : AimsAt view aP aR) (ha : view.state ≠ .armed)
    (hc : view.state ≠ .idle → view.state ≠ .release → view.look.codes.isSome) : gainTargets view = (aP, aR) := by
  obtain ⟨home, away⟩ := h
  simp only [← codeGain_eq] at away
  unfold gainTargets Look.audio
  dsimp only
  cases hs : view.state with
  | armed => exact absurd hs ha
  | idle =>
    obtain ⟨rfl, rfl⟩ := home (.inl hs)
    rfl
  | release =>
    obtain ⟨rfl, rfl⟩ := home (.inr hs)
    rfl
  | squeeze | held =>
    obtain ⟨d, hd⟩ := Option.isSome_iff_exists.1 (hc (by rw [hs]; decide) (by rw [hs]; decide))
    obtain ⟨item, none⟩ := (away d hd).1 (by simp [hs])
    rw [hd]
    cases hi : view.item with
    | none =>
      obtain ⟨rfl, rfl⟩ := none hi
      rfl
    | some i =>
      obtain ⟨rfl, rfl⟩ := item i hi
      rfl
  | takeover | promoFull =>
    obtain ⟨d, hd⟩ := Option.isSome_iff_exists.1 (hc (by rw [hs]; decide) (by rw [hs]; decide))
    obtain ⟨item, none⟩ := (away d hd).2 (by simp [hs])
    rw [hd]
    cases hi : view.item with
    | none =>
      obtain ⟨rfl, rfl⟩ := none hi
      rfl
    | some i =>
      obtain ⟨rfl, rfl⟩ := item i hi
      rfl

/-! ### The promo source of the mix -/

section
variable {rate : FrameRate} {inp : FrameInputs} {view : FrameView}

theorem promoAudio_of_absent (h : view.promo = none) : promoAudio rate inp view = [] := by
  unfold promoAudio
  rw [h]

theorem promoAudio_of_backing (h : namedInput inp.promo view.item = none) : promoAudio rate inp view = [] := by
  unfold namedInput at h
  unfold promoAudio
  cases view.promo with
  | none => rfl
  | some q =>
    cases hi : view.item.map Item.source with
    | none => rfl
    | some source => cases source <;> simp_all

theorem promoAudio_of_input {q : Rect} {g : InputFrame} (hq : view.promo = some q)
    (h : namedInput inp.promo view.item = some g) :
    promoAudio rate inp view = if inputValid rate g then g.pair1 else [] := by
  unfold namedInput at h
  unfold promoAudio
  rw [hq]
  cases hi : view.item.map Item.source with
  | none => simp [hi] at h
  | some source => cases source <;> simp_all

end

/-- Settles O58: the targets are those of the frame's view, and each sample of pair 1 is a mix of its sources. -/
theorem gainsRampAndPairOneIsMixed : Obligations.GainsRampAndPairOneIsMixed := by
  intro ch inp s present
  obtain ⟨f, built⟩ := s.framed_built ch inp
  rw [State.frameView_eq_handed present inp] at built
  refine ⟨_, f, exec_channelFrameEvent ch inp s, built.built, ?_⟩
  intro view read n valid programme promo aP aR aims codes gP gR
  have targets : gainTargets view = (aP, aR) :=
    gainTargets_of_aimsAt aims (State.handed_state_ne_armed ch inp s _) codes
  have source : promoAudio s.ref.rate read view = promo := by
    cases hq : view.promo with
    | none =>
      rw [promoAudio_of_absent hq]
      simp only [promo, hq]
    | some q =>
      cases hn : namedInput read.promo view.item with
      | none =>
        rw [promoAudio_of_backing hn]
        simp only [promo, hq, hn]
      | some g =>
        rw [promoAudio_of_input hq hn]
        simp only [promo, hq, hn]
        rfl
  obtain ⟨-, -, pair1, others, -, -, mixedP, mixedR⟩ := built
  rw [show gainTargets (State.handed ch inp s (s.framed ch inp)) = (aP, aR) from targets] at pair1 mixedP mixedR
  rw [Gain.retarget_eq_aimed] at mixedP mixedR
  rw [Gain.retarget_eq_aimed, Gain.retarget_eq_aimed] at pair1
  have pair : f.pair1 = mixFrame n gP gR programme promo :=
    pair1.trans (congrArg (mixFrame n gP gR programme) source)
  refine ⟨mixedP.trans (gP.after_eq_mixed n), mixedR.trans (gR.after_eq_mixed n), ?_, others, fun i hi => ?_⟩
  · rw [pair]
    simp [mixFrame]
  · rw [pair]
    exact mixFrame_getElem? gP gR programme promo hi

/-! ### Holds -/

section
variable {rate : FrameRate} {inp : FrameInputs} {view : FrameView} {h : Hold}

theorem drawInput_hold (valid : Bool) (src : Picture) (r : Rect) (backing : Colour) (h : Hold) :
    (drawInput valid src r backing h).hold =
      if valid then { counter := 0, picture := some (windowPicture r src) }
      else { counter := if h.counter < 6 then h.counter + 1 else 6, picture := h.picture } := by
  have next : h.next = if h.counter < 6 then h.counter + 1 else 6 := by
    show min (h.counter + 1) 6 = _
    split <;> omega
  unfold drawInput
  rw [next]
  cases valid <;> rfl

theorem drawInput_begins (valid : Bool) (src : Picture) (r : Rect) (backing : Colour) (h : Hold) :
    (drawInput valid src r backing h).begins = true ↔ valid = false ∧ h.counter = 0 := by
  unfold drawInput
  cases valid <;> simp

theorem drawProgramme_of_present {r : Rect} (hr : view.pgm = some r) :
    drawProgramme rate inp view h = drawInput (inputValid rate inp.pgm) inp.pgm.picture r view.look.backing h := by
  unfold drawProgramme
  rw [hr]

theorem drawProgramme_of_absent (hr : view.pgm = none) : drawProgramme rate inp view h = drawAbsent := by
  unfold drawProgramme
  rw [hr]

theorem drawPromo_of_absent (hr : view.promo = none) : drawPromo rate inp view h = drawAbsent := by
  unfold drawPromo
  rw [hr]

/-- A hold of the programme window begins in the first lost frame (R139). -/
theorem drawProgramme_begins :
    (drawProgramme rate inp view h).begins = true ↔
      (view.pgm.isSome = true ∧ inputValid rate inp.pgm = false) ∧ h.counter = 0 := by
  cases hr : view.pgm with
  | none =>
    rw [drawProgramme_of_absent hr]
    simp [drawAbsent]
  | some r =>
    rw [drawProgramme_of_present hr, drawInput_begins]
    simp

/-- A hold of the promo window begins in the first lost frame of the input its item names (R140). -/
theorem drawPromo_begins :
    (drawPromo rate inp view h).begins = true ↔
      (view.promo.isSome = true ∧ ∃ g, namedInput inp.promo view.item = some g ∧ inputValid rate g = false) ∧
        h.counter = 0 := by
  cases hr : view.promo with
  | none =>
    rw [drawPromo_of_absent hr]
    simp [drawAbsent]
  | some r =>
    cases hn : namedInput inp.promo view.item with
    | none =>
      rw [drawPromo_of_backing hr hn]
      simp [drawBacking]
    | some g =>
      rw [drawPromo_of_input hr hn, drawInput_begins]
      simp

/-- A lost promo window shows an input that is invalid (R140). -/
theorem lost_promo_iff :
    view.lost rate inp .promo = true ↔
      ∃ q g, view.promo = some q ∧ namedInput inp.promo view.item = some g ∧ inputValid rate g = false := by
  unfold FrameView.lost namedInput
  cases view.promo with
  | none => simp
  | some q =>
    cases view.item.map Item.source with
    | none => simp
    | some source => cases source <;> simp

end

/-! ### The rows of the composer -/

section
variable {ch : Channel} {s : State} {offered : FrameInputs} {w : Window} {x : GainName}

/-- A lost window whose counter stands at 5 comes to 6 with its hold picture (R139, R140). -/
theorem compose_hold_of_lost {c : ChannelState} {rate : FrameRate} {inp : FrameInputs} {view : FrameView}
    (hl : view.lost rate inp w = true) (hc : (c.composer.hold w).counter = 5) :
    (c.compose rate inp view).composer.hold w = { counter := 6, picture := (c.composer.hold w).picture } := by
  have lostHold (src : Picture) (r : Rect) (backing : Colour) {h : Hold} (hh : h.counter = 5) :
      (drawInput false src r backing h).hold = { counter := 6, picture := h.picture } := by
    rw [drawInput_hold, hh]
    rfl
  cases w with
  | programme =>
    have drawn : (c.compose rate inp view).composer.hold .programme =
      (drawProgramme rate inp view c.composer.pgmHold).hold := rfl
    have present := (Bool.and_eq_true_iff.1 hl).1
    have invalid := (Bool.and_eq_true_iff.1 hl).2
    obtain ⟨r, hr⟩ := Option.isSome_iff_exists.1 present
    rw [Bool.not_eq_true'] at invalid
    rw [drawn, drawProgramme_of_present hr, invalid]
    exact lostHold _ _ _ hc
  | promo =>
    have drawn : (c.compose rate inp view).composer.hold .promo =
      (drawPromo rate inp view c.composer.promoHold).hold := rfl
    obtain ⟨q, g, hq, hn, invalid⟩ := lost_promo_iff.1 hl
    rw [drawn, drawPromo_of_input hq hn, invalid]
    exact lostHold _ _ _ hc

/-- A gain whose ramp passes its 1024 samples in a frame is at its target (R143). -/
theorem Gain.after_of_ended {g : Gain} {k n : Nat} (hp : g.position = some k) (hk : k ≤ 1024) (hn : 1024 < k + n) :
    g.after n = { g with present := g.target, position := none } := by
  have ends : Config.rampLength ≤ k + n := by show 1024 ≤ _; omega
  have last : Config.rampLength ≤ k + (n - 1) := by show 1024 ≤ _; omega
  have some : n ≠ 0 := by omega
  simp only [Gain.after, Gain.at, hp, if_pos ends, if_pos last, if_neg some]

theorem compose_gain_of_ended {c : ChannelState} {rate : FrameRate} {inp : FrameInputs} {view : FrameView} {k : Nat}
    (hp : (c.composer.gain x).position = some k) (hk : k ≤ 1024) (hn : 1024 < k + frameSamples rate inp)
    (ht : ((c.composer.retargeted view).gain x) = c.composer.gain x) :
    (c.compose rate inp view).composer.gain x =
      { c.composer.gain x with present := (c.composer.gain x).target, position := none } := by
  have mixed : (c.compose rate inp view).composer.gain x =
      ((c.composer.retargeted view).gain x).after (frameSamples rate inp) := by cases x <;> rfl
  rw [mixed, ht, Gain.after_of_ended hp hk hn]

/-- The target of a gain in a frame (R142). -/
def aimOf (view : FrameView) : GainName → Nat
  | .gP => (gainTargets view).1
  | .gR => (gainTargets view).2

/-- Setting the targets leaves a gain whose target is in force (R142). -/
theorem retargeted_gain_same {c : Composer} {view : FrameView} (h : (c.gain x).target = aimOf view x) :
    (c.retargeted view).gain x = c.gain x := by
  cases x with
  | gP => exact Gain.retarget_same h
  | gR => exact Gain.retarget_same h

/-- The composer's own work leaves the channel's other blocks and the other channels (R134). -/
theorem composerWork_kept (ch : Channel) (inp : FrameInputs) (s : State) (view : FrameView) :
    let t := composerWork ch (s.inputs inp) view (s.judge inp.promo)
    ((t.chan ch).schedule = (s.chan ch).schedule ∧ (t.chan ch).engine = (s.chan ch).engine ∧
      (t.chan ch).promo = (s.chan ch).promo ∧ (t.chan ch).parser = (s.chan ch).parser ∧
      (t.chan ch).tally = (s.chan ch).tally ∧ (t.chan ch).fetch = (s.chan ch).fetch ∧
      t = { s with channels := t.channels, aligned := some (s.promoFrames inp.promo) } ∧
      ∀ x, x ≠ ch → t.chan x = s.chan x) ∧
      (t.chan ch).composer = ((s.chan ch).compose s.ref.rate (s.inputs inp) view).composer := by
  intro t
  have own : t.chan ch = (s.chan ch).compose s.ref.rate (s.inputs inp) view := State.chan_modChan_same ..
  rw [own]
  exact ⟨⟨rfl, rfl, rfl, rfl, rfl, rfl, rfl, fun x hx => State.chan_modChan_ne _ hx _⟩, rfl⟩

end

/-- SOURCE_HOLD is set by a frame exactly where it was, or where a hold begins (R139, R140). -/
theorem State.framed_sourceHold (s : State) (ch : Channel) (inp : FrameInputs) :
    ((s.framed ch inp).chan ch).reporter.flag .sourceHold = true ↔
      (s.chan ch).reporter.flag .sourceHold = true ∨
        (drawProgramme s.ref.rate (s.inputs inp) (s.frameView ch inp) (s.chan ch).composer.pgmHold).begins = true ∨
        (drawPromo s.ref.rate (s.inputs inp) (s.frameView ch inp) (s.chan ch).composer.promoHold).begins = true := by
  have beside := (standsBeside_frameSettled s ch inp).composer
  rw [(s.atFrame_beside ch inp).2.1] at beside
  have pgmHold : ((s.frameSettled ch inp).chan ch).composer.pgmHold = (s.chan ch).composer.pgmHold :=
    (congrArg Composer.pgmHold beside :)
  have promoHold : ((s.frameSettled ch inp).chan ch).composer.promoHold = (s.chan ch).composer.promoHold :=
    (congrArg Composer.promoHold beside :)
  have raised (r : Reporter) (b : Bool) :
      (r.raiseIf b .sourceHold).flag .sourceHold = true ↔ r.flag .sourceHold = true ∨ b = true := by
    cases b with
    | false => simp
    | true => simp [Reporter.flag_raise_self]
  have flags : ((s.framed ch inp).chan ch).reporter.flag .sourceHold =
      (s.frameChannel ch inp).reporter.flag .sourceHold := by
    rw [s.framed_own]
    rfl
  rw [flags, State.frameChannel, ChannelState.compose, pgmHold, promoHold]
  exact (raised _ _).trans (or_congr (by rw [(s.frameSettled_noted ch inp).sourceHold]) (Bool.or_eq_true _ _ ▸ .rfl))

/-- Settles O59: the rows by the composer's own work on the window or the gain; the frame by what it drew. -/
theorem holdsAndRampsEnd : Obligations.HoldsAndRampsEnd := by
  intro ch inp s c read kept
  refine ⟨fun w lost five => ?_, fun x n running ends within aims => ?_, fun present => ?_⟩
  · have comes : (c.view.lost s.ref.rate read w && decide ((c.composer.hold w).counter + 1 = Config.holdLimit)) = true := by
      rw [lost, five]
      rfl
    obtain ⟨stands, composer⟩ := composerWork_kept ch inp s c.view
    refine ⟨_, congrArg Host.Outcome.next (if_pos comes), stands, ?_⟩
    rw [composer]
    exact compose_hold_of_lost lost five
  · have same : (c.composer.retargeted c.view).gain x = c.composer.gain x :=
      retargeted_gain_same (by cases x <;> exact aims)
    have comes : ((c.composer.retargeted c.view).gain x).endsWithin (frameSamples s.ref.rate inp) = true := by
      rw [same, Gain.endsWithin, Gain.after_of_ended running within ends, running]
      rfl
    obtain ⟨stands, composer⟩ := composerWork_kept ch inp s c.view
    refine ⟨_, congrArg Host.Outcome.next (if_pos comes), stands, ?_⟩
    rw [composer]
    exact compose_gain_of_ended running within ends same
  · obtain ⟨f, built⟩ := s.framed_built ch inp
    have flag := s.framed_sourceHold ch inp
    rw [State.frameView_eq_handed present inp] at built flag
    refine ⟨_, exec_channelFrameEvent ch inp s, ?_⟩
    intro view after pgmLost promoLost
    refine ⟨built.pgmHold.trans ?_, built.promoHold.trans ?_, flag.trans ?_⟩
    · cases hr : view.pgm with
      | none => exact congrArg Drawn.hold (drawProgramme_of_absent hr)
      | some r => exact (congrArg Drawn.hold (drawProgramme_of_present hr)).trans (drawInput_hold ..)
    · cases hq : view.promo with
      | none => exact congrArg Drawn.hold (drawPromo_of_absent hq)
      | some q =>
        cases hn : namedInput read.promo view.item with
        | none => exact congrArg Drawn.hold (drawPromo_of_backing hq hn _)
        | some g => exact (congrArg Drawn.hold (drawPromo_of_input hq hn _)).trans (drawInput_hold ..)
    · exact or_congr .rfl (or_congr drawProgramme_begins drawPromo_begins)

end Sys2Proof.Machine
end


section
/-!
PROOFS. The list's work at an event and the turn of a running junction: what the count and the successor leave, and how
an event that lets the junction run on, or takes an end cause, leaves the list and the engine.
-/

namespace Sys2Proof.Machine

/-! ### The count of the current item -/

section
variable {p : PromoList} {v : PromoValidity} {b : BankId} {cur : Cursor} {it : Item}

theorem countedCursor_eq_tick (c : Cursor) (valid : Bool) : countedCursor c valid = c.tick valid := by
  unfold countedCursor Cursor.tick
  cases c.gate with
  | none => simp
  | some g => cases valid <;> simp

theorem countedStart_eq (n : Nat) : countedStart n = countStart n := by
  unfold countedStart countStart
  show _ = min (n + 1) 62
  split <;> omega

theorem startingCursor_eq (j : Nat) (i : Item) : startingCursor j i = Cursor.starting j i := rfl

theorem Cursor.done_iff (c : Cursor) : c.done = true ↔ c.duration = 0 ∨ c.gate = some 0 := by
  simp [Cursor.done]

/-- What the list tells of a cursor it leaves with no start at the event: the exhaustion, and the underrun of a chained
bank (R82, R83). -/
def PromoList.reportOf (p : PromoList) (b : BankId) (cur : Cursor) : ListReport :=
  { started := false, exhausted := decide (cur.phase = .exhausted)
    underrun := decide (cur.phase = .exhausted) && (p.bank b).chain }

theorem PromoList.at_eq_setCursor (hb : p.play.bank = some b) (c : Cursor) :
    p.at b c p.play.started = p.setCursor c := by
  rw [PromoList.at, PromoList.setCursor, ← hb]

theorem PromoList.current_of_at (hb : p.play.bank = some b) (hc : p.play.cursor = some cur) :
    p.current = (p.bank b).items[cur.index]? := by
  simp only [PromoList.current, hb, hc]

/-- A running item counts; where a counter comes to 0 it is FINISHED or EXHAUSTED (R78, R79, R82, R83). -/
theorem PromoList.count_of_running (hb : p.play.bank = some b) (hc : p.play.cursor = some cur)
    (hi : (p.bank b).items[cur.index]? = some it) (hr : cur.phase = .running) :
    p.count v = (p.at b (p.shown v b cur it) p.play.started, p.reportOf b (p.shown v b cur it)) := by
  have item : p.current = some it := (PromoList.current_of_at hb hc).trans hi
  have index : (cur.tick (it.source.valid v)).index = cur.index := by
    unfold Cursor.tick
    split <;> rfl
  have phase : (cur.tick (it.source.valid v)).phase = .running := by
    rw [← hr]
    unfold Cursor.tick
    split <;> rfl
  rw [PromoList.at_eq_setCursor hb]
  unfold PromoList.shown
  simp only [PromoList.count, hb, hc, item, hr, if_true, countedCursor_eq_tick]
  by_cases hd : (cur.tick (it.source.valid v)).done = true
  · rw [if_pos hd, if_pos ((Cursor.done_iff _).1 hd)]
    unfold PromoList.finish
    simp only [index]
    by_cases hn : cur.index + 1 < (p.bank b).items.length
    · simp [hn, PromoList.reportOf, ListReport.none]
    · by_cases hch : (p.bank b).chain = true
      · by_cases ho : (p.bank b.other).state = .ready
        · simp [hn, hch, ho, PromoList.reportOf, ListReport.none]
        · simp [hn, hch, ho, PromoList.reportOf]
      · simp [hn, hch, PromoList.reportOf]
  · rw [if_neg hd, if_neg fun h => hd ((Cursor.done_iff _).2 h)]
    simp [PromoList.reportOf, phase, ListReport.none]

theorem PromoList.count_of_stopped (hc : p.play.cursor = some cur) (hr : cur.phase ≠ .running) :
    p.count v = (p, .none) := by
  unfold PromoList.count
  split
  · rename_i c _ hc' _
    rw [hc] at hc'
    obtain rfl := Option.some.inj hc'
    exact if_neg hr
  · rfl

theorem PromoList.count_of_empty (hb : p.play.bank = none ∨ p.play.cursor = none) : p.count v = (p, .none) := by
  unfold PromoList.count
  split
  · rename_i hb' hc' _
    rcases hb with h | h
    · cases h.symm.trans hb'
    · cases h.symm.trans hc'
  · rfl

/-! ### The successor of a finished item -/

theorem PromoList.successor_of_unfinished (hc : p.play.cursor = some cur) (hr : cur.phase ≠ .finished) :
    p.successor = (p, .none) := by
  unfold PromoList.successor
  split
  · rename_i c _ hc'
    rw [hc] at hc'
    obtain rfl := Option.some.inj hc'
    exact if_neg hr
  · rfl

theorem PromoList.successor_of_empty (hb : p.play.bank = none ∨ p.play.cursor = none) : p.successor = (p, .none) := by
  unfold PromoList.successor
  split
  · rename_i hb' hc'
    rcases hb with h | h
    · cases h.symm.trans hb'
    · cases h.symm.trans hc'
  · rfl

theorem PromoList.successor_of_next (hb : p.play.bank = some b) (hc : p.play.cursor = some cur)
    (hf : cur.phase = .finished) (hi : (p.bank b).items[cur.index + 1]? = some it) :
    p.successor =
      (p.at b (startingCursor (cur.index + 1) it) (countedStart p.play.started),
        { ListReport.none with started := true }) := by
  obtain ⟨more, -⟩ := List.getElem?_eq_some_iff.1 hi
  simp only [PromoList.successor, hb, hc, hf, if_true, if_pos more, PromoList.startItem, hi, Option.map_some,
    PromoList.at, countedStart_eq, startingCursor_eq]

theorem PromoList.successor_of_swap (hb : p.play.bank = some b) (hc : p.play.cursor = some cur)
    (hf : cur.phase = .finished) (hl : (p.bank b).items.length ≤ cur.index + 1)
    (ho : (p.bank b.other).state = .ready) (hi : (p.bank b.other).items[0]? = some it) :
    p.successor =
      (((p.setBankState b .spent).setBankState b.other .playing).at b.other (startingCursor 0 it)
          (countedStart p.play.started),
        { ListReport.none with started := true }) := by
  have items : (((p.setBankState b .spent).setBankState b.other .playing).bank b.other).items[0]? = some it := by
    rw [← hi]
    cases b <;> rfl
  simp only [PromoList.successor, hb, hc, hf, if_true, if_neg (not_lt_of_ge hl), if_pos ho, PromoList.startItem, items,
    Option.map_some, PromoList.at, countedStart_eq, startingCursor_eq]

theorem PromoList.successor_of_underrun (hb : p.play.bank = some b) (hc : p.play.cursor = some cur)
    (hf : cur.phase = .finished) (hl : (p.bank b).items.length ≤ cur.index + 1)
    (ho : (p.bank b.other).state ≠ .ready) :
    p.successor =
      (p.at b { cur with phase := .exhausted } p.play.started, { started := false, exhausted := true, underrun := true }) := by
  rw [PromoList.at_eq_setCursor hb]
  simp only [PromoList.successor, hb, hc, hf, if_true, if_neg (not_lt_of_ge hl), if_neg ho]

end

/-! ### The list's work at an event -/

section
variable {p q : PromoList} {v : PromoValidity} {b : BankId} {cur : Cursor} {it : Item} {st : EngineState} {r : ListReport}

theorem ListReport.none_and (r : ListReport) : ListReport.none.and r = r := by
  cases r
  simp [ListReport.and, ListReport.none]

theorem ListReport.and_none (r : ListReport) : r.and .none = r := by
  cases r
  simp [ListReport.and, ListReport.none]

theorem PromoList.work_of_successor (ha : st.advancesItems = true) (hs : p.successor = (q, r)) :
    p.work st true v = ((q.count v).1, r.and (q.count v).2) := by
  simp only [PromoList.work, ha, if_true, hs]

theorem PromoList.work_of_staying (ha : st.advancesItems = true) : p.work st false v = p.count v := by
  simp only [PromoList.work, ha, if_true, Bool.false_eq_true, if_false, ListReport.none_and]

/-- Where no item is FINISHED the list's work is the count of the current item. -/
theorem PromoList.work_of_count (ha : st.advancesItems = true) (hs : p.successor = (p, .none)) (carries : Bool) :
    p.work st carries v = p.count v := by
  cases carries with
  | false => exact PromoList.work_of_staying ha
  | true => rw [PromoList.work_of_successor ha hs, ListReport.none_and]

/-- The list's work at an event at which an item starts: the item counts as it starts (R78 to R80). -/
theorem PromoList.work_of_started (ha : st.advancesItems = true) {j n : Nat}
    (hs : p.successor = (q.at b (startingCursor j it) n, { ListReport.none with started := true }))
    (hi : (q.bank b).items[j]? = some it) :
    p.work st true v =
      (q.at b (q.shown v b (startingCursor j it) it) n,
        { q.reportOf b (q.shown v b (startingCursor j it) it) with started := true }) := by
  have counted : (q.at b (startingCursor j it) n).count v =
      (q.at b (q.shown v b (startingCursor j it) it) n, q.reportOf b (q.shown v b (startingCursor j it) it)) :=
    PromoList.count_of_running (p := q.at b (startingCursor j it) n) (b := b) (cur := startingCursor j it) rfl rfl hi rfl
  rw [PromoList.work_of_successor ha hs, counted]
  rfl

/-- The list's work where no successor starts leaves the banks. -/
theorem PromoList.work_staying_banks (st : EngineState) (v : PromoValidity) (p : PromoList) :
    (p.work st false v).1.bank0 = p.bank0 ∧ (p.work st false v).1.bank1 = p.bank1 ∧
      (p.work st false v).2.started = false := by
  have counted : (p.count v).1.bank0 = p.bank0 ∧ (p.count v).1.bank1 = p.bank1 ∧ (p.count v).2.started = false := by
    unfold PromoList.count PromoList.finish
    split
    · dsimp only
      split
      · split
        · split
          · exact ⟨rfl, rfl, rfl⟩
          · split
            · split <;> exact ⟨rfl, rfl, rfl⟩
            · exact ⟨rfl, rfl, rfl⟩
        · exact ⟨rfl, rfl, rfl⟩
      · exact ⟨rfl, rfl, rfl⟩
    · exact ⟨rfl, rfl, rfl⟩
  by_cases ha : st.advancesItems = true
  · rw [PromoList.work_of_staying ha]
    exact counted
  · unfold PromoList.work
    rw [if_neg ha]
    split
    · unfold PromoList.countReleasing
      split
      · split <;> exact ⟨rfl, rfl, rfl⟩
      · exact ⟨rfl, rfl, rfl⟩
    · exact ⟨rfl, rfl, rfl⟩

theorem PromoList.spent_of_banks (h0 : q.bank0 = p.bank0) (h1 : q.bank1 = p.bank1) : q.spent = p.spent := by
  rw [PromoList.spent, h0, h1, PromoList.spent]

end

/-! ### The list put into the channel -/

theorem ChannelState.takeList_eq_listed (c : ChannelState) (p : PromoList) (r : ListReport) (marks : Bool) :
    (c.withList p r).markIf marks = c.listed p r.started marks r.underrun := by
  obtain ⟨started, exhausted, underrun⟩ := r
  have itemsPlayed : (fun j : JunctionRecord => { j with itemsPlayed := countStart j.itemsPlayed }) =
      fun j => { j with itemsPlayed := countedStart j.itemsPlayed } := by
    funext j
    rw [countedStart_eq]
  have record : (if started then c.engine.modRecord fun j => { j with itemsPlayed := countedStart j.itemsPlayed }
        else c.engine) =
      { c.engine with
        record :=
          if started then c.engine.record.map fun j => { j with itemsPlayed := countedStart j.itemsPlayed }
          else c.engine.record } := by
    cases started <;> rfl
  unfold ChannelState.withList ChannelState.markIf ChannelState.listed
  dsimp only
  rw [itemsPlayed, record]
  cases marks with
  | false => rfl
  | true =>
    rw [if_pos rfl, if_pos rfl, Engine.markListEnd_eq]
    rfl

/-! ### The engine at an event that lets the junction run on -/

section
variable {e : Engine} {items emptyList : Bool}

theorem RunsOn.running (h : RunsOn e) : e.state ≠ .idle ∧ e.state ≠ .armed := by
  unfold RunsOn at h
  constructor <;> intro hs <;> rw [hs] at h <;> exact h

theorem RunsOn.causeAt (h : RunsOn e) (hs : e.state = .squeeze ∨ e.state = .held) : e.causeAt = none := by
  refine Engine.causeAt_eq_none fun c hc => ?_
  unfold RunsOn at h
  rcases hs with hs | hs <;> rw [hs] at h <;> exact h c hc

theorem RunsOn.release (h : RunsOn e) (hs : e.state = .release) : e.k + 1 < e.m := by
  unfold RunsOn at h
  rwa [hs] at h

theorem RunsOn.takeover (h : RunsOn e) (hs : e.state = .takeover) : e.marker ≠ some .listEnd := by
  unfold RunsOn at h
  rwa [hs] at h

theorem RunsOn.promoFull (h : RunsOn e) (hs : e.state = .promoFull) : e.marker = none := by
  unfold RunsOn at h
  rwa [hs] at h

/-- The engine an event that lets the junction run on leaves (R32 to R35, R41 to R43). -/
def Engine.onward (e : Engine) (emptyList : Bool) : Engine :=
  match e.state with
  | .squeeze => e.squeezeOn emptyList
  | .held => e.counted
  | .release => e.advance
  | .takeover => if e.m ≤ e.k + 1 then e.advance.enterPromoFull else e.advance
  | .idle | .armed | .promoFull => e

theorem Engine.work_of_runsOn (h : RunsOn e) :
    e.work items emptyList = { engine := e.onward emptyList, ending := .goes, tookCause := false } := by
  unfold Engine.onward
  cases hs : e.state with
  | idle => exact absurd hs h.running.1
  | armed => exact absurd hs h.running.2
  | squeeze => exact Engine.work_of_squeeze hs (h.causeAt (.inl hs))
  | held => simp only [Engine.work, hs, h.causeAt (.inr hs)]
  | release => exact Engine.work_of_release_on hs (h.release hs)
  | takeover =>
    simp only [Engine.work, hs, if_neg (h.takeover hs), Engine.advance_m, Engine.advance_k]
    split <;> rfl
  | promoFull => simp [Engine.work, hs, h.promoFull hs]

theorem Engine.squeezeOn_record (e : Engine) (emptyList : Bool) : (e.squeezeOn emptyList).record = e.record := by
  unfold Engine.squeezeOn
  dsimp only
  split
  · rw [Engine.enterHeld_record, Engine.advance_record]
    rfl
  · rw [Engine.advance_record]
    rfl

theorem Engine.onward_record (e : Engine) (emptyList : Bool) : (e.onward emptyList).record = e.record := by
  unfold Engine.onward
  split
  · exact e.squeezeOn_record emptyList
  · rfl
  · exact e.advance_record
  · split
    · exact e.advance_record
    · exact e.advance_record
  · rfl
  · rfl
  · rfl

theorem Engine.onward_marker (e : Engine) : (e.onward false).marker = e.marker := by
  unfold Engine.onward
  split
  · unfold Engine.squeezeOn
    dsimp only
    split
    · exact Engine.advance_marker _
    · exact Engine.advance_marker _
  · rfl
  · exact e.advance_marker
  · split
    · exact e.advance_marker
    · exact e.advance_marker
  · rfl
  · rfl
  · rfl

/-- An event that advances items and does not let the junction run on takes an end cause or cuts to passthrough. -/
theorem Engine.work_of_not_runsOn (ha : AdvancesItems e) (h : ¬ RunsOn e) :
    (e.work items emptyList).tookCause = true ∨ (e.work items emptyList).ending.isCut = true := by
  have caused (hs : e.state = .squeeze ∨ e.state = .held) : (e.work items emptyList).tookCause = true := by
    have some : ∃ c, FirstCause e c := by
      by_contra none
      rw [not_exists] at none
      refine h ?_
      unfold RunsOn
      rcases hs with hs | hs <;> rw [hs] <;> exact none
    obtain ⟨c, hc⟩ := some
    rw [Engine.work_of_cause hs (Engine.causeAt_of_firstCause hc)]
    rcases e.act_cases c items with act | act | ⟨-, act⟩ <;> rw [act]
  rcases ha with hs | hs | hs | hs
  · exact .inl (caused (.inl hs))
  · exact .inl (caused (.inr hs))
  · have listEnd : e.marker = some .listEnd := by
      by_contra hm
      refine h ?_
      unfold RunsOn
      rw [hs]
      exact hm
    right
    simp [Engine.work, hs, listEnd, FrameEnd.isCut]
  · have marked : e.marker.isSome = true := by
      by_contra hm
      refine h ?_
      unfold RunsOn
      rw [hs]
      simpa using hm
    right
    simp [Engine.work, hs, marked, FrameEnd.isCut]

theorem AdvancesItems.advancesItems (h : AdvancesItems e) : e.state.advancesItems = true := by
  rcases h with h | h | h | h <;> rw [h] <;> rfl

end

/-! ### The turn of a running junction -/

section
variable {c : ChannelState} {v : PromoValidity}

theorem ChannelState.turn_of_runsOn (h : RunsOn c.engine) :
    c.turn v =
      { list := (c.promo.work c.engine.state true v).1, report := (c.promo.work c.engine.state true v).2
        result := { engine := c.engine.onward c.emptyList, ending := .goes, tookCause := false }
        carriesPromo := true } := by
  have result : c.playedResult v = { engine := c.engine.onward c.emptyList, ending := .goes, tookCause := false } :=
    Engine.work_of_runsOn h
  rw [ChannelState.turn_of_uncut (by rw [result]; rfl), result]

/-- The turn's list is the list with the successor started or the one without. -/
theorem ChannelState.turn_list (c : ChannelState) (v : PromoValidity) :
    (c.turn v).list = (c.promo.work c.engine.state (c.turn v).carriesPromo v).1 ∧
      (c.turn v).report = (c.promo.work c.engine.state (c.turn v).carriesPromo v).2 := by
  cases cut : (c.playedResult v).ending.isCut with
  | false => rw [ChannelState.turn_of_uncut cut]; exact ⟨rfl, rfl⟩
  | true =>
    cases cut' : (c.stayedResult v).ending.isCut || Config.restoresOnDoomedSuccessor with
    | true => rw [ChannelState.turn_of_cut cut cut']; exact ⟨rfl, rfl⟩
    | false => rw [ChannelState.turn_of_spared cut cut']; exact ⟨rfl, rfl⟩

theorem ChannelState.turn_marks_of_not_runsOn (ha : AdvancesItems c.engine) (h : ¬ RunsOn c.engine) :
    (c.turn v).marks = false := by
  obtain ⟨items, result⟩ := c.turn_result v
  unfold Turn.marks
  rw [result]
  rcases Engine.work_of_not_runsOn (items := items) (emptyList := c.emptyList) ha h with took | cut
  · simp [took]
  · simp [cut]

theorem ChannelState.turn_marks_of_runsOn (h : RunsOn c.engine) : (c.turn v).marks = (c.turn v).report.exhausted := by
  rw [ChannelState.turn_of_runsOn h, Turn.marks]
  simp [FrameEnd.isCut]

theorem ChannelState.takeList_turn (c d : ChannelState) (v : PromoValidity) :
    d.takeList (c.turn v) =
      d.listed (c.turn v).list (c.turn v).report.started (c.turn v).marks (c.turn v).report.underrun :=
  d.takeList_eq_listed ..

end

end Sys2Proof.Machine
end


section
/-!
PROOFS. Items end and start (O35, O36): the rows of the list by the turn of the junction, and the frames that let the
junction run on.
-/

namespace Sys2Proof.Machine

/-! ### The frame of a junction that runs on -/

section
variable {ch : Channel} {inp : FrameInputs} {s : State}

/-- A running junction that goes on: the engine and the list of its turn (R31, R80). -/
theorem junctionFrame_of_goes {v : PromoValidity} (hi : (s.chan ch).engine.state ≠ .idle)
    (ha : (s.chan ch).engine.state ≠ .armed) (hg : ((s.chan ch).turn v).result.ending = .goes) :
    (junctionFrame ch v s).1 = s.setChan ch ((s.chan ch).runOn v).1 := by
  rw [junctionFrame_of_running v hi ha, hg]
  rfl

/-- A running junction keeps its channel out of the arm test (R14). -/
theorem runOn_busy (v : PromoValidity) (hi : (s.chan ch).engine.state ≠ .idle)
    (ha : (s.chan ch).engine.state ≠ .armed) :
    ((s.setChan ch ((s.chan ch).runOn v).1).chan ch).engine.state ≠ .idle := by
  obtain ⟨items, result⟩ := (s.chan ch).turn_result v
  rw [State.chan_setChan_same, ChannelState.runOn_engine_state, result]
  exact fun hw => hi (Engine.work_idle ha hw)

theorem State.frameSettled_of_goes (hi : ((s.atFrame ch inp).chan ch).engine.state ≠ .idle)
    (ha : ((s.atFrame ch inp).chan ch).engine.state ≠ .armed)
    (hg : (((s.atFrame ch inp).chan ch).turn (s.frameValidity inp)).result.ending = .goes) :
    s.frameSettled ch inp =
      missSweep ch
        ((s.atFrame ch inp).setChan ch (((s.atFrame ch inp).chan ch).runOn (s.frameValidity inp)).1) := by
  rw [State.frameSettled, junctionFrame_of_goes hi ha hg, armTest_of_busy (runOn_busy _ hi ha)]

/-- The channel frame event of a running junction that goes on is the miss sweep and the frame on what its turn leaves
(R16, R31, R153). -/
theorem frame_of_goes (hi : ((s.atFrame ch inp).chan ch).engine.state ≠ .idle)
    (ha : ((s.atFrame ch inp).chan ch).engine.state ≠ .armed)
    (hg : (((s.atFrame ch inp).chan ch).turn (s.frameValidity inp)).result.ending = .goes) :
    ∃ w t,
      exec (.missedBusy ch)
          ((s.atFrame ch inp).setChan ch (((s.atFrame ch inp).chan ch).runOn (s.frameValidity inp)).1) = .next w ∧
        exec (.channelFrameEvent ch inp) s = .next t ∧ State.FrameTail ch w t := by
  have tail := s.framed_tail ch inp
  rw [State.frameSettled_of_goes hi ha hg] at tail
  exact ⟨_, _, exec_missedBusy_of_busy (runOn_busy _ hi ha), exec_channelFrameEvent ch inp s, tail⟩

theorem Reporter.flag_of_flags {r q : Reporter} (h : r.flags = q.flags) (f : Flag) : r.flag f = q.flag f := by
  unfold Reporter.flag
  rw [h]

theorem Reporter.missAll_flag (r : Reporter) (o : JunctionOutcome) (es : List Entry) {f : Flag}
    (h : Flag.missed.bit ≠ f.bit) : (r.missAll o es).flag f = r.flag f := by
  by_cases he : es = []
  · rw [he]
    rfl
  · rw [Reporter.missAll_of_ne_nil r o he, ← r.flag_raise_of_ne h]
    rfl

/-- The sweep and the frame after it leave the list, the marker, the items played and BANK_UNDERRUN. -/
theorem frameLists_of_settled {d : ChannelState} {w : State} (hw : s.frameSettled ch inp = missSweep ch w)
    (promo : (w.chan ch).promo = d.promo) (marker : (w.chan ch).engine.marker = d.engine.marker)
    (record : (w.chan ch).engine.record = d.engine.record) (reporter : (w.chan ch).reporter = d.reporter) :
    State.FrameLists ch inp s d := by
  obtain ⟨-, -, own, -, flags⟩ := s.framed_tail ch inp
  have swept : (missSweep ch w).chan ch = _ := (congrArg (State.chan · ch) (missUnless_eq ..)).trans (State.chan_modChan_same ..)
  rw [hw] at own flags
  have underrun : ((missSweep ch w).chan ch).reporter.flag .bankUnderrun = d.reporter.flag .bankUnderrun := by
    rw [swept, ← reporter]
    exact Reporter.missAll_flag _ _ _ (by decide)
  refine ⟨_, exec_channelFrameEvent ch inp s, ?_, ?_, ?_, ?_⟩
  · rw [own, swept]
    exact promo
  · rw [own, swept]
    exact marker
  · rw [own, swept]
    exact congrArg (Option.map (·.itemsPlayed)) record
  · rw [← underrun]
    rcases flags with h | h
    · exact Reporter.flag_of_flags h _
    · rw [← Reporter.flag_raise_of_ne ((missSweep ch w).chan ch).reporter (f := .sourceHold) (by decide)]
      exact Reporter.flag_of_flags h _

/-- The lists a channel frame event leaves a running junction that has a current item (R78 to R83). -/
theorem frameLists_of_runsOn (h : RunsOn ((s.atFrame ch inp).chan ch).engine)
    (hb : ((s.atFrame ch inp).chan ch).promo.play.bank ≠ none) :
    State.FrameLists ch inp s
      (((s.atFrame ch inp).chan ch).takeList (((s.atFrame ch inp).chan ch).turn (s.frameValidity inp))) := by
  have full : ((s.atFrame ch inp).chan ch).emptyList = false := by
    unfold ChannelState.emptyList
    rw [Option.isNone_eq_false_iff]
    exact Option.isSome_iff_ne_none.2 hb
  have ran : (((s.atFrame ch inp).chan ch).runOn (s.frameValidity inp)).1 = _ := ChannelState.runOn_fst ..
  have engine : (((s.atFrame ch inp).chan ch).turn (s.frameValidity inp)).result.engine =
      ((s.atFrame ch inp).chan ch).engine.onward false := by rw [ChannelState.turn_of_runsOn h, full]
  rw [ChannelState.takeList_turn, engine] at ran
  rw [ChannelState.takeList_turn]
  have goes : (((s.atFrame ch inp).chan ch).turn (s.frameValidity inp)).result.ending = .goes := by
    rw [ChannelState.turn_of_runsOn h]
  refine frameLists_of_settled (State.frameSettled_of_goes h.running.1 h.running.2 goes) ?_ ?_ ?_ ?_
  · rw [State.chan_setChan_same, ran]
    rfl
  · rw [State.chan_setChan_same, ran]
    simp only [ChannelState.listed, ChannelState.withEngine, Engine.onward_marker]
  · rw [State.chan_setChan_same, ran]
    simp only [ChannelState.listed, ChannelState.withEngine, Engine.onward_record]
  · rw [State.chan_setChan_same, ran]
    rfl

end

/-! ### The rows of the list -/

section
variable {ch : Channel} {s : State} {offered : PromoFrames} {v : PromoValidity} {b : BankId} {cur : Cursor} {it : Item}

theorem listWorkIf_eq {comes : Bool} (h : comes = true) :
    listWorkIf comes ch offered v s =
      ({ s with aligned := some (s.promoFrames offered) } : State).setChan ch
        ((s.chan ch).takeList ((s.chan ch).turn v)) := if_pos h

theorem ChannelState.nextCount_of_running {c : ChannelState} (ha : AdvancesItems c.engine)
    (hb : c.promo.play.bank = some b) (hc : c.promo.play.cursor = some cur)
    (hi : (c.promo.bank b).items[cur.index]? = some it) (hr : cur.phase = .running) :
    c.nextCount v = some (countedCursor cur (it.source.valid v)) := by
  have unfinished : c.promo.successor.1 = c.promo := by
    rw [PromoList.successor_of_unfinished hc (by rw [hr]; decide)]
  have item : c.promo.current = some it := (PromoList.current_of_at hb hc).trans hi
  unfold ChannelState.nextCount
  rw [if_pos ha.advancesItems, unfinished, ite_self]
  simp only [PromoList.nextCount, hb, hc, item, if_pos hr, countedCursor_eq_tick]

end

/-- Settles O35: the list's work counts the running item whichever way the engine goes; LIST_END is marked where the
junction runs on. -/
theorem itemsExpire : Obligations.ItemsExpire := by
  intro ch offered i b cur it s c v counted cur' ended left judged ha hb hc hi hr named
  have next := ChannelState.nextCount_of_running (v := v) ha hb hc hi hr
  have row : exec i s = .next (judged.setChan ch (c.takeList (c.turn v))) := by
    rcases named with ⟨rfl, zero⟩ | ⟨rfl, zero⟩
    · refine congrArg Host.Outcome.next (listWorkIf_eq ?_)
      rw [next]
      exact decide_eq_true zero
    · refine congrArg Host.Outcome.next (listWorkIf_eq ?_)
      rw [next]
      exact decide_eq_true zero
  have work (carries : Bool) : c.promo.work c.engine.state carries v =
      (c.promo.at b cur' c.promo.play.started, c.promo.reportOf b cur') :=
    (PromoList.work_of_count ha.advancesItems
      (PromoList.successor_of_unfinished hc (by rw [hr]; decide)) carries).trans
      (PromoList.count_of_running hb hc hi hr)
  obtain ⟨list, report⟩ := c.turn_list v
  rw [work] at list report
  have taken (marks : Bool) (hm : (c.turn v).marks = (ended && marks)) : c.takeList (c.turn v) = left marks := by
    rw [ChannelState.takeList_turn, list, report, hm]
    rfl
  refine ⟨fun on => ?_, fun off => ?_⟩
  · have marks : (c.turn v).marks = (ended && true) := by
      rw [ChannelState.turn_marks_of_runsOn on, report, Bool.and_true]
      rfl
    refine ⟨by rw [row, taken true marks], fun inp s0 hs => ?_⟩
    rw [← taken true marks]
    subst hs
    exact frameLists_of_runsOn on fun none => by cases none.symm.trans hb
  · rw [row, taken false (by rw [ChannelState.turn_marks_of_not_runsOn ha off, Bool.and_false])]

/-! ### Successors -/

section
variable {c : ChannelState} {v : PromoValidity} {cause : EndCause}

/-- An end cause over a length takes the list with the successor started, and marks no LIST_END (R37 to R40, R80). -/
theorem ChannelState.turn_of_cause (hs : c.engine.state = .squeeze ∨ c.engine.state = .held)
    (hc : c.engine.causeAt = some cause) (hl : 0 < c.engine.endLength) :
    c.turn v =
      { list := (c.promo.work c.engine.state true v).1, report := (c.promo.work c.engine.state true v).2
        result := c.engine.act cause (c.promo.work c.engine.state true v).1.itemsRemain, carriesPromo := true } := by
  have result : c.playedResult v = c.engine.act cause (c.promo.work c.engine.state true v).1.itemsRemain :=
    Engine.work_of_cause hs hc
  have goes : (c.playedResult v).ending.isCut = false := by
    rw [result]
    cases ho : c.engine.takesOver cause (c.promo.work c.engine.state true v).1.itemsRemain with
    | true =>
      rw [Engine.act_of_takesOver ho]
      rfl
    | false =>
      rw [Engine.act_of_release ho (by omega)]
      rfl
  rw [ChannelState.turn_of_uncut goes, result]

theorem Engine.act_tookCause (e : Engine) (c : EndCause) (items : Bool) : (e.act c items).tookCause = true := by
  rcases e.act_cases c items with act | act | ⟨-, act⟩ <;> rw [act]

/-- A junction that every list would cut to passthrough at this event is cut with no successor started (R80). -/
theorem ChannelState.turn_of_sure_cut (h : ∀ items, (c.engine.work items c.emptyList).ending.isCut = true) :
    c.turn v =
      { list := (c.promo.work c.engine.state false v).1, report := (c.promo.work c.engine.state false v).2
        result := c.playedResult v, carriesPromo := false } :=
  ChannelState.turn_of_cut (h _) (Bool.or_eq_true_iff.2 (.inl (h _)))

end

/-- The events that cut a junction to passthrough whatever items remain (R39, R40, R42, R43). -/
theorem Engine.work_sure_cut {e : Engine} {r : JunctionRecord} {emptyList : Bool} (hr : e.record = some r)
    (h : (e.state = .takeover ∧ e.marker = some .listEnd) ∨ (e.state = .promoFull ∧ e.marker ≠ none) ∨
      ((e.state = .squeeze ∨ e.state = .held) ∧ e.endLength = 0 ∧
        ∃ cause, FirstCause e cause ∧ (cause = .listEnd ∨ r.endAction = .restore))) (items : Bool) :
    (e.work items emptyList).ending.isCut = true := by
  rcases h with ⟨hs, hm⟩ | ⟨hs, hm⟩ | ⟨hs, hz, cause, hc, restores⟩
  · simp [Engine.work, hs, hm, FrameEnd.isCut]
  · simp [Engine.work, hs, Option.isSome_iff_ne_none.2 hm, FrameEnd.isCut]
  · rw [Engine.work_of_cause hs (Engine.causeAt_of_firstCause hc),
      Engine.act_of_cut (Engine.takesOver_of_restores hr (restores.imp_right .inl)) hz]
    rfl

/-- Settles O36: the successor by the list, the marks by the engine; a cut starts nothing. -/
theorem successorsStart : Obligations.SuccessorsStart := by
  intro ch offered b cur r s c e v length row judged leaves starts ha hr hb hc hf
  have endLength : e.endLength = length := by rw [Engine.endLength, Engine.template_of_record hr]
  have came (hcarries : (c.turn v).carriesPromo = true) : row = .next (judged.setChan ch (c.takeList (c.turn v))) := by
    refine congrArg Host.Outcome.next (listWorkIf_eq ?_)
    have phase : c.promo.play.cursor.map Cursor.phase = some .finished := by rw [hc, Option.map_some, hf]
    show (c.engine.state.advancesItems && decide (c.promo.play.cursor.map Cursor.phase = some .finished) &&
      (c.turn v).carriesPromo) = true
    rw [ha.advancesItems, phase, hcarries]
    rfl
  have leavesPlayed (left : Bool → ChannelState) (p : PromoList) (rep : ListReport)
      (work : c.promo.work e.state true v = (p, rep))
      (hl : ∀ marks, left marks = c.listed p rep.started (rep.exhausted && marks) rep.underrun) : leaves left := by
    refine ⟨fun on => ?_, fun cause hs hcause positive => ?_⟩
    · have turn := ChannelState.turn_of_runsOn (c := c) (v := v) on
      have taken : c.takeList (c.turn v) = left true := by
        rw [ChannelState.takeList_turn, ChannelState.turn_marks_of_runsOn on, turn, work, hl, Bool.and_true]
      refine ⟨by rw [came (by rw [turn]), taken], fun inp s0 hs => ?_⟩
      rw [← taken]
      subst hs
      exact frameLists_of_runsOn on fun none => by cases none.symm.trans hb
    · have turn := ChannelState.turn_of_cause (c := c) (v := v) hs (Engine.causeAt_of_firstCause hcause)
        (endLength ▸ positive)
      have marks : (c.turn v).marks = false := by
        rw [turn, Turn.marks, Engine.act_tookCause]
        simp
      rw [came (by rw [turn]), ChannelState.takeList_turn, marks, turn, work, hl, Bool.and_false]
  refine ⟨fun i hi => ?_, fun hl ho i hi => ?_, fun hl ho => ?_, fun cut => ?_⟩
  · exact leavesPlayed _ _ _
      (PromoList.work_of_started ha.advancesItems (PromoList.successor_of_next hb hc hf hi) hi) fun _ => rfl
  · have items : ((((c.promo.setBankState b .spent).setBankState b.other .playing).bank b.other).items[0]?) = some i := by
      rw [← hi]
      cases b <;> rfl
    exact leavesPlayed _ _ _
      (PromoList.work_of_started ha.advancesItems (PromoList.successor_of_swap hb hc hf hl ho hi) items) fun _ => rfl
  · have work : c.promo.work e.state true v =
        (c.promo.at b { cur with phase := .exhausted } c.promo.play.started,
          { started := false, exhausted := true, underrun := true }) := by
      rw [PromoList.work_of_successor ha.advancesItems (PromoList.successor_of_underrun hb hc hf hl ho),
        PromoList.count_of_stopped (cur := { cur with phase := .exhausted }) rfl Phase.noConfusion, ListReport.and_none]
    exact leavesPlayed _ _ _ work fun marks => by rw [Bool.true_and]
  · rw [← endLength] at cut
    have turn := ChannelState.turn_of_sure_cut (v := v) (Engine.work_sure_cut (emptyList := c.emptyList) hr cut)
    have stands : c.leavesItem v = false := by
      unfold ChannelState.leavesItem
      rw [turn]
      exact Bool.and_false _
    exact congrArg Host.Outcome.next (if_neg (ne_true_of_eq_false stands))

end Sys2Proof.Machine
end


section
/-!
PROOFS. The frames that end a junction or take an end cause (O31, O29): the turn without the successor before a junction
end, and the turn with it before a restore over a move or a takeover.
-/

namespace Sys2Proof.Machine

/-! ### The channel a turn leaves -/

section
variable {c : ChannelState} {v : PromoValidity}

/-- A channel given a list and the engine of a turn differs by its engine, list, tally and flags alone. -/
theorem ChannelState.worked_listed (c : ChannelState) (e : Engine) (p : PromoList) (started marks underrun : Bool) :
    c.Worked ((c.withEngine e).listed p started marks underrun) := by
  cases underrun <;> rfl

theorem ChannelState.listed_flags (c : ChannelState) (p : PromoList) (started marks underrun : Bool) :
    (c.listed p started marks underrun).reporter.flags =
      c.reporter.flags ||| if underrun then Flag.bankUnderrun.word else 0 := by
  cases underrun with
  | true => rfl
  | false => exact BitVec.or_zero.symm

theorem ChannelState.runOn_listed (c : ChannelState) (v : PromoValidity) :
    (c.runOn v).1 =
      (c.withEngine (c.turn v).result.engine).listed (c.turn v).list (c.turn v).report.started (c.turn v).marks
        (c.turn v).report.underrun := by
  rw [ChannelState.runOn_fst, ChannelState.takeList_turn]

/-- A turn takes the list with no successor started (R80). -/
def ChannelState.TurnStays (c : ChannelState) (v : PromoValidity) : Prop :=
  (c.turn v).list = (c.promo.work c.engine.state false v).1 ∧
    (c.turn v).report = (c.promo.work c.engine.state false v).2

theorem ChannelState.turnStays_of_sure_cut (h : ∀ items, (c.engine.work items c.emptyList).ending.isCut = true) :
    c.TurnStays v := by
  unfold ChannelState.TurnStays
  rw [ChannelState.turn_of_sure_cut h]
  exact ⟨rfl, rfl⟩

end

/-! ### A frame that ends the junction -/

section
variable {ch : Channel} {inp : FrameInputs} {s : State} {r : JunctionRecord} {o : JunctionOutcome}

/-- A channel frame event whose turn ends the junction, or cuts it to passthrough (R45, R85). -/
theorem frameEnds_of_turn (hi : ((s.atFrame ch inp).chan ch).engine.state ≠ .idle)
    (ha : ((s.atFrame ch inp).chan ch).engine.state ≠ .armed)
    (hend : ∀ t, finishEnd ch (((s.atFrame ch inp).chan ch).turn (s.frameValidity inp)).result.ending t =
      junctionEnd ch o t)
    (hr : (((s.atFrame ch inp).chan ch).turn (s.frameValidity inp)).result.engine.record = some r)
    (hl : ((s.atFrame ch inp).chan ch).TurnStays (s.frameValidity inp))
    (sound : (s.chan ch).schedule.Sound s.ref.sfc) :
    State.FrameEnds ch inp s (r.last o)
      (if (((s.atFrame ch inp).chan ch).promo.work ((s.atFrame ch inp).chan ch).engine.state false
          (s.frameValidity inp)).2.underrun then Flag.bankUnderrun.word else 0) := by
  obtain ⟨list, report⟩ := hl
  obtain ⟨bank0, bank1, started⟩ := PromoList.work_staying_banks ((s.atFrame ch inp).chan ch).engine.state
    (s.frameValidity inp) ((s.atFrame ch inp).chan ch).promo
  have ran := ((s.atFrame ch inp).chan ch).runOn_listed (s.frameValidity inp)
  rw [list, report, started] at ran
  have record : ((((s.atFrame ch inp).chan ch).runOn (s.frameValidity inp)).1).engine.record = some r := by
    rw [ran, ← hr]
    rfl
  have worked : ((s.atFrame ch inp).chan ch).Worked (((s.atFrame ch inp).chan ch).runOn (s.frameValidity inp)).1 := by
    rw [ran]
    exact ChannelState.worked_listed ..
  obtain ⟨u, ends, ended, flags, promo, parser⟩ := junctionEnd_of_worked worked record o
  have settled : s.frameSettled ch inp = missSweep ch (armTest ch u) := by
    rw [State.frameSettled, junctionFrame_of_running _ hi ha, hend, ends, armTest_armTest]
  have tail := s.framed_tail ch inp
  rw [settled] at tail
  have found : (u.chan ch).schedule.Sound u.ref.sfc := by
    rw [ended.schedule, ended.kept.ref, State.atFrame_chan, ChannelState.frameCounted_schedule]
    exact sound
  refine ⟨u, _, _, _, ended, ?_, ?_, parser, rfl, exec_missedBusy_armTest found, exec_channelFrameEvent ch inp s, tail⟩
  · rw [flags, ran]
    exact ChannelState.listed_flags ..
  · rw [promo, ran]
    exact PromoList.spent_of_banks bank0 bank1

end

/-! ### Completed junctions -/

section
variable {e : Engine} {items emptyList : Bool}

theorem Engine.work_of_takeover_end (hs : e.state = .takeover) (hm : e.marker = some .listEnd) :
    e.work items emptyList = { engine := e, ending := .cut .completedTakeover, tookCause := false } := by
  simp only [Engine.work, hs, if_pos hm]

theorem Engine.work_of_promoFull_end (hs : e.state = .promoFull) (hm : e.marker ≠ none) :
    e.work items emptyList = { engine := e, ending := .cut .completedTakeover, tookCause := false } := by
  simp only [Engine.work, hs, if_pos (Option.isSome_iff_ne_none.2 hm)]

end

section
variable {ch : Channel} {s : State} {r : JunctionRecord} {o : JunctionOutcome}

/-- A row whose engine's work ends the junction (R45). -/
theorem engineWork_ends (hs : (s.chan ch).engine.state ≠ .armed) {k : Engine} {ending : FrameEnd}
    (hw : ∀ items, (s.chan ch).engine.work items (s.chan ch).emptyList =
      { engine := k, ending := ending, tookCause := false })
    (hend : ∀ t, finishEnd ch ending t = junctionEnd ch o t) (hr : k.record = some r) :
    ∃ u, engineWork ch s = armTest ch u ∧ State.JunctionEnded ch s u (r.last o) ∧
      (u.chan ch).reporter.flags = (s.chan ch).reporter.flags ∧ (u.chan ch).promo = (s.chan ch).promo.spent ∧
      (u.chan ch).parser = (s.chan ch).parser := by
  obtain ⟨u, ends, ended, flags, promo, parser⟩ :=
    junctionEnd_of_worked (worked_withEngine (s.chan ch) k) (o := o) hr
  refine ⟨u, ?_, ended, flags, promo, parser⟩
  rw [engineWork_of_running hs, hw]
  exact (hend _).trans ends

end

/-- Settles O31: the engine's work ends the junction at the row and, with the list's work beside it, at the frame. -/
theorem junctionsEndAndTheEngineArms : Obligations.JunctionsEndAndTheEngineArms := by
  intro ch i o r s e hr named
  have work : exec i s = .next (engineWork ch s) ∧ e.state ≠ .idle ∧ e.state ≠ .armed ∧
      ∃ k ending, (∀ items, e.work items (s.chan ch).emptyList = { engine := k, ending := ending, tookCause := false }) ∧
        (∀ t, finishEnd ch ending t = junctionEnd ch o t) ∧ k.record = some r ∧
        ∀ v, (s.chan ch).TurnStays v := by
    rcases named with ⟨rfl, hs, hk, rfl⟩ | ⟨rfl, hs, hm, rfl⟩ | ⟨rfl, hs, hm, rfl⟩
    · have comes : (decide (e.state = .release) && decide (e.m ≤ e.k + 1)) = true := by simp [hs, hk]
      refine ⟨congrArg Host.Outcome.next (if_pos comes), by rw [hs]; decide, by rw [hs]; decide, _, _,
        fun items => Engine.work_of_release_last hs hk, fun _ => rfl, e.advance_record.trans hr, fun v => ?_⟩
      have release : (s.chan ch).engine.state = .release := hs
      have result : (s.chan ch).playedResult v =
          { engine := e.advance, ending := .ends .completedRestore, tookCause := false } :=
        Engine.work_of_release_last hs hk
      unfold ChannelState.TurnStays
      rw [ChannelState.turn_of_uncut (by rw [result]; rfl), release]
      exact ⟨rfl, rfl⟩
    · have comes : (decide (e.state = .takeover) && decide (e.marker = some .listEnd)) = true := by simp [hs, hm]
      exact ⟨congrArg Host.Outcome.next (if_pos comes), by rw [hs]; decide, by rw [hs]; decide, _, _,
        fun items => Engine.work_of_takeover_end hs hm, fun _ => rfl, hr, fun v =>
          ChannelState.turnStays_of_sure_cut (Engine.work_sure_cut hr (.inl ⟨hs, hm⟩))⟩
    · have comes : (decide (e.state = .promoFull) && e.marker.isSome) = true := by
        simp [hs, Option.isSome_iff_ne_none.2 hm]
      exact ⟨congrArg Host.Outcome.next (if_pos comes), by rw [hs]; decide, by rw [hs]; decide, _, _,
        fun items => Engine.work_of_promoFull_end hs hm, fun _ => rfl, hr, fun v =>
          ChannelState.turnStays_of_sure_cut (Engine.work_sure_cut hr (.inr (.inl ⟨hs, hm⟩)))⟩
  obtain ⟨row, hi, ha, k, ending, hw, hend, hk, stays⟩ := work
  refine ⟨?_, fun inp s0 hs sound => ?_⟩
  · obtain ⟨u, worked, rest⟩ := engineWork_ends ha hw hend hk
    exact ⟨u, by rw [row, worked], rest⟩
  · subst hs
    obtain ⟨items, result⟩ := ((s0.atFrame ch inp).chan ch).turn_result (s0.frameValidity inp)
    rw [hw] at result
    exact frameEnds_of_turn hi ha (by rw [result]; exact hend) (by rw [result]; exact hk) (stays _) sound

/-! ### Frames that take an end cause -/

section
variable {c : ChannelState} {v : PromoValidity} {cause : EndCause} {r : JunctionRecord}

/-- The record an event that takes an end cause leaves, with the items played (R38, R46, R80). -/
def JunctionRecord.caused (r : JunctionRecord) (cause : EndCause) (started : Bool) : JunctionRecord :=
  { r with
    endCause := some cause, itemsPlayed := if started then countedStart r.itemsPlayed else r.itemsPlayed }

/-- The channel a turn leaves that takes the list with the successor started, and an end cause that ends nothing. -/
theorem ChannelState.runOn_of_caused {e' : Engine} {carries : Bool}
    (turn : c.turn v =
      { list := (c.promo.work c.engine.state true v).1, report := (c.promo.work c.engine.state true v).2
        result := { engine := e', ending := .goes, tookCause := true }, carriesPromo := carries })
    (hr : e'.record = some { r with endCause := some cause }) (hm : e'.marker = none) (ht : e'.state.tally = true) :
    (c.runOn v).1 =
      { c with
        engine := { e' with record := some (r.caused cause (c.promo.work c.engine.state true v).2.started), marker := none }
        tally := true
        promo := (c.promo.work c.engine.state true v).1
        reporter :=
          { c.reporter with
            flags :=
              c.reporter.flags |||
                if (c.promo.work c.engine.state true v).2.underrun then Flag.bankUnderrun.word else 0 } } := by
  have marks : (c.turn v).marks = false := by
    rw [turn, Turn.marks]
    simp
  have record (started : Bool) :
      (if started then e'.record.map fun j : JunctionRecord => { j with itemsPlayed := countedStart j.itemsPlayed }
        else e'.record) = some (r.caused cause started) := by
    rw [hr]
    cases started <;> rfl
  have flags (b : Bool) :
      (if b then { c.reporter with flags := c.reporter.flags ||| Flag.bankUnderrun.word } else c.reporter) =
        { c.reporter with flags := c.reporter.flags ||| if b then Flag.bankUnderrun.word else 0 } :=
    c.reporter.raiseIf_eq b .bankUnderrun
  rw [ChannelState.runOn_listed, marks, turn]
  unfold ChannelState.listed ChannelState.withEngine
  dsimp only
  rw [record, flags, ht, hm]
  rfl

/-- The list is exhausted only by the successor the cut would keep from starting, and it does not restore (R39, R84; log
entry 4); or items remain with the successor started: the junction takes over. -/
theorem ChannelState.turn_of_takeover (hs : c.engine.state = .squeeze ∨ c.engine.state = .held)
    (hc : c.engine.causeAt = some cause) (hr : c.engine.record = some r) (hl : cause ≠ .listEnd)
    (ha : r.endAction = .takeover)
    (hi : ¬ ((c.promo.work c.engine.state true v).1.itemsRemain = false ∧
      (0 < c.engine.endLength ∨ (c.promo.work c.engine.state false v).1.itemsRemain = false ∨
        Config.restoresOnDoomedSuccessor = true))) :
    c.turn v =
      { list := (c.promo.work c.engine.state true v).1, report := (c.promo.work c.engine.state true v).2
        result := { engine := (c.engine.takeCause cause).beginTakeover, ending := .goes, tookCause := true }
        carriesPromo := true } := by
  have played : c.playedResult v = c.engine.act cause (c.promo.work c.engine.state true v).1.itemsRemain :=
    Engine.work_of_cause hs hc
  have stayed : c.stayedResult v = c.engine.act cause (c.promo.work c.engine.state false v).1.itemsRemain :=
    Engine.work_of_cause hs hc
  have takes {items : Bool} (h : items = true) : c.engine.act cause items =
      { engine := (c.engine.takeCause cause).beginTakeover, ending := .goes, tookCause := true } :=
    Engine.act_of_takesOver ((Engine.takesOver_iff hr).2 ⟨hl, ha, h⟩)
  cases plays : (c.promo.work c.engine.state true v).1.itemsRemain with
  | true =>
    rw [takes plays] at played
    rw [ChannelState.turn_of_uncut (by rw [played]; rfl), played]
  | false =>
    have doomed : ¬ (0 < c.engine.endLength ∨ (c.promo.work c.engine.state false v).1.itemsRemain = false ∨
        Config.restoresOnDoomedSuccessor = true) := fun h => hi ⟨plays, h⟩
    rw [not_or, not_or, Bool.not_eq_false, Bool.not_eq_true] at doomed
    obtain ⟨zero, stays, free⟩ := doomed
    rw [Engine.act_of_cut (Engine.takesOver_of_restores hr (.inr (.inr plays))) (by omega)] at played
    rw [takes stays] at stayed
    rw [ChannelState.turn_of_spared (by rw [played]; rfl) (by rw [stayed, free]; rfl), stayed]

/-- A cause that restores with length 0 cuts the junction with no successor started (R39, R40, R80). -/
theorem ChannelState.turn_of_restoring_cut (hs : c.engine.state = .squeeze ∨ c.engine.state = .held)
    (hc : c.engine.causeAt = some cause) (hr : c.engine.record = some r) (hz : c.engine.endLength = 0)
    (restores : cause = .listEnd ∨ r.endAction = .restore ∨
      (c.promo.work c.engine.state true v).1.itemsRemain = false ∧
        ((c.promo.work c.engine.state false v).1.itemsRemain = false ∨ Config.restoresOnDoomedSuccessor = true)) :
    c.TurnStays v ∧
      (c.turn v).result =
        { engine := c.engine.takeCause cause, ending := .cut .completedRestore, tookCause := true } := by
  have played : c.playedResult v =
      { engine := c.engine.takeCause cause, ending := .cut .completedRestore, tookCause := true } :=
    (Engine.work_of_cause hs hc).trans
      (Engine.act_of_cut (Engine.takesOver_of_restores hr (restores.imp_right (.imp_right And.left))) hz)
  have stayed : ((c.stayedResult v).ending.isCut || Config.restoresOnDoomedSuccessor) = true := by
    have result : c.stayedResult v = c.engine.act cause (c.promo.work c.engine.state false v).1.itemsRemain :=
      Engine.work_of_cause hs hc
    have cut (h : cause = .listEnd ∨ r.endAction = .restore ∨
        (c.promo.work c.engine.state false v).1.itemsRemain = false) : (c.stayedResult v).ending.isCut = true := by
      rw [result, Engine.act_of_cut (Engine.takesOver_of_restores hr h) hz]
      rfl
    rw [Bool.or_eq_true]
    rcases restores with h | h | ⟨-, h | h⟩
    · exact .inl (cut (.inl h))
    · exact .inl (cut (.inr (.inl h)))
    · exact .inl (cut (.inr (.inr h)))
    · exact .inr h
  have turn := ChannelState.turn_of_cut (c := c) (v := v) (by rw [played]; rfl) stayed
  unfold ChannelState.TurnStays
  rw [turn, played]
  exact ⟨⟨rfl, rfl⟩, rfl⟩

end

/-- Settles O29: the turn by the length and the items remaining, with a free value where they leave it open. -/
theorem framesTakeEndCauses : Obligations.FramesTakeEndCauses := by
  intro ch inp cause r s0 s c e v t0 plays stays length restores r' home pgm back fill word goes hs hr hc
  have endLength : e.endLength = length := by rw [Engine.endLength, Engine.template_of_record hr]
  have hi : e.state ≠ .idle := by rcases hs with h | h <;> rw [h] <;> decide
  have ha : e.state ≠ .armed := by rcases hs with h | h <;> rw [h] <;> decide
  have cause' := Engine.causeAt_of_firstCause hc
  have taken := Engine.takeCause_of_record hr cause
  have record : (e.takeCause cause).record = some { r with endCause := some cause } := by rw [taken]
  have went {e' e'' : Engine}
      (turn : c.turn v =
        { list := plays.1, report := plays.2, result := { engine := e'', ending := .goes, tookCause := true }
          carriesPromo := true })
      (hrec : e''.record = some { r with endCause := some cause }) (hm : e''.marker = none)
      (ht : e''.state.tally = true)
      (he : { e'' with record := some r', marker := none } =
        { e' with record := some r', credit := none, watch := none, marker := none }) : goes e' := by
    have ran := ChannelState.runOn_of_caused turn hrec hm ht
    have frame := frame_of_goes (ch := ch) (inp := inp) (s := s0) hi ha
      (congrArg (fun t : Turn => t.result.ending) turn)
    rw [show (((s0.atFrame ch inp).chan ch).runOn (s0.frameValidity inp)).1 = _ from ran,
      show ({ e'' with record := some (r.caused cause plays.2.started), marker := none } : Engine) = _ from he] at frame
    exact frame
  have takes (kept : ¬ restores) : c.turn v =
      { list := plays.1, report := plays.2
        result := { engine := (e.takeCause cause).beginTakeover, ending := .goes, tookCause := true }
        carriesPromo := true } := by
    obtain ⟨listEnd, rest⟩ := not_or.1 kept
    obtain ⟨action, remains⟩ := not_or.1 rest
    have takeover : r.endAction = .takeover := by
      cases h : r.endAction with
      | restore => exact absurd h action
      | takeover => rfl
    rw [← endLength] at remains
    exact ChannelState.turn_of_takeover hs cause' hr listEnd takeover remains
  refine ⟨fun restoring positive => ?_, fun restoring zero sound => ?_, fun kept zero => ?_, fun kept positive => ?_⟩
  · have released := Engine.beginRelease_of_record record length
    have turn := ChannelState.turn_of_cause (c := c) (v := v) hs cause' (by rwa [endLength])
    have acts : e.act cause plays.1.itemsRemain =
        { engine := (e.takeCause cause).beginRelease length, ending := .goes, tookCause := true } := by
      rw [← endLength]
      exact Engine.act_of_release (Engine.takesOver_of_restores hr (restoring.imp_right (.imp_right And.left)))
        (by omega)
    rw [show c.engine.act cause (c.promo.work c.engine.state true v).1.itemsRemain = _ from acts] at turn
    exact went turn (by rw [released, record]) (by rw [released, taken]) (by rw [released]; rfl)
      (by rw [released, taken])
  · obtain ⟨list, result⟩ := ChannelState.turn_of_restoring_cut (c := c) (v := v) hs cause' hr (endLength.trans zero)
      (restoring.imp_right (.imp_right fun h => ⟨h.1, h.2.resolve_left (by omega)⟩))
    exact frameEnds_of_turn (r := { r with endCause := some cause }) hi ha
      (fun t => congrArg (fun x : EngineResult => finishEnd ch x.ending t) result)
      ((congrArg (fun x : EngineResult => x.engine.record) result).trans record) list sound
  · have taken' := Engine.beginTakeover_of_record record
    rw [if_pos (show (r.template.getD fallbackLayout).mOut = 0 from zero)] at taken'
    exact went (takes kept) (by rw [taken', record]) (by rw [taken', taken]) (by rw [taken']; rfl)
      (by rw [taken', taken])
  · have taken' := Engine.beginTakeover_of_record record
    rw [if_neg (show ¬ (r.template.getD fallbackLayout).mOut = 0 from positive.ne')] at taken'
    exact went (takes kept) (by rw [taken', record]) (by rw [taken', taken]) (by rw [taken']; rfl)
      (by rw [taken', taken])

end Sys2Proof.Machine
end


section
/-!
PROOFS. The frames of a junction that goes on (O56): the engine of an event that takes no end cause, and the list of an
event at which no item ends or starts.
-/

namespace Sys2Proof.Machine

/-! ### The engine of an event that lets the junction run on -/

section
variable {e : Engine} {r : JunctionRecord}

theorem RunsOn.counters (h : RunsOn e) (hs : e.state = .squeeze ∨ e.state = .held) :
    expires e.credit = false ∧ (e.state = .held → expires e.watch = false) := by
  have none (c : EndCause) : ¬ FirstCause e c := by
    rw [Engine.firstCause_iff, h.causeAt hs]
    exact nofun
  have unmarked : e.marker ≠ some .endCommand := fun hm => none .endCommand (.inl ⟨rfl, hm⟩)
  have credit : ¬ expires e.credit = true := fun hx => none .creditTimer (.inr (.inl ⟨rfl, unmarked, hx⟩))
  refine ⟨Bool.eq_false_iff.2 credit, fun held => Bool.eq_false_iff.2 fun hw => ?_⟩
  exact none .watch (.inr (.inr (.inl ⟨rfl, unmarked, credit, held, hw⟩)))

theorem Engine.counted_advance (hs : e.state = .squeeze) :
    e.counted.advance = { e.advance with credit := fallen e.credit } := by
  have watch : e.counted.watch = e.watch := if_neg (by rw [hs]; decide)
  have counted : e.counted = { e with credit := fallen e.credit } := by
    rw [← watch]
    rfl
  rw [counted]
  unfold Engine.advance Engine.showMove
  cases e.move <;> rfl

theorem Engine.onward_squeeze_last (hs : e.state = .squeeze) (hr : e.record = some r) (hk : e.m ≤ e.k + 1)
    (emptyList : Bool) :
    e.onward emptyList =
      { e with
        state := .held, k := 0, m := 0, move := none, credit := fallen e.credit, watch := r.watch
        pgmRect := some (r.template.getD fallbackLayout).pgmTarget
        promoRect := some (if e.degraded then fullFrame else (r.template.getD fallbackLayout).prmTarget)
        marker := if emptyList then markedListEnd e.marker else e.marker } := by
  unfold Engine.onward
  rw [hs]
  exact Engine.squeezeOn_of_last hr hk emptyList

theorem Engine.onward_squeeze_on (hs : e.state = .squeeze) (hk : ¬ e.m ≤ e.k + 1) (emptyList : Bool) :
    e.onward emptyList = { e.advance with credit := fallen e.credit } := by
  have short : ¬ e.counted.advance.m ≤ e.counted.advance.k := by
    rw [Engine.advance_m, Engine.advance_k]
    exact hk
  have squeezed : e.onward emptyList = e.squeezeOn emptyList := by
    unfold Engine.onward
    rw [hs]
  rw [squeezed, Engine.squeezeOn, if_neg short, Engine.counted_advance hs]

theorem Engine.onward_held (hs : e.state = .held) (emptyList : Bool) :
    e.onward emptyList = { e with credit := fallen e.credit, watch := fallen e.watch } := by
  have watch : e.counted.watch = fallen e.watch := if_pos hs
  have held : e.onward emptyList = e.counted := by
    unfold Engine.onward
    rw [hs]
  rw [held, ← watch]
  rfl

theorem Engine.onward_release (hs : e.state = .release) (emptyList : Bool) : e.onward emptyList = e.advance := by
  unfold Engine.onward
  rw [hs]

theorem Engine.onward_takeover_last (hs : e.state = .takeover) (hk : e.m ≤ e.k + 1) (emptyList : Bool) :
    e.onward emptyList =
      { e with
        state := .promoFull, k := 0, m := 0, move := none, pgmRect := none, promoRect := some fullFrame } := by
  unfold Engine.onward
  rw [hs]
  dsimp only
  rw [if_pos hk]
  unfold Engine.advance Engine.showMove
  cases e.move <;> rfl

theorem Engine.onward_takeover_on (hs : e.state = .takeover) (hk : ¬ e.m ≤ e.k + 1) (emptyList : Bool) :
    e.onward emptyList = e.advance := by
  unfold Engine.onward
  rw [hs]
  exact if_neg hk

theorem Engine.onward_promoFull (hs : e.state = .promoFull) (emptyList : Bool) : e.onward emptyList = e := by
  unfold Engine.onward
  rw [hs]

/-- An empty list marks LIST_END at the event that enters HELD, and at no other (R37). -/
theorem Engine.onward_empty_marker (hr : e.record = some r) :
    (e.onward true).marker =
      if e.state = .squeeze ∧ e.m ≤ e.k + 1 then markedListEnd e.marker else e.marker := by
  by_cases hs : e.state = .squeeze
  · by_cases hk : e.m ≤ e.k + 1
    · rw [if_pos ⟨hs, hk⟩, Engine.onward_squeeze_last hs hr hk]
      rfl
    · rw [if_neg fun h => hk h.2, Engine.onward_squeeze_on hs hk]
      exact e.advance_marker
  · rw [if_neg fun h => hs h.1, ← e.onward_marker]
    unfold Engine.onward
    cases hst : e.state with
    | squeeze => exact absurd hst hs
    | idle | armed | held | release | takeover | promoFull => rfl

end

/-! ### The list of an event at which no item ends or starts -/

section
variable {p : PromoList} {v : PromoValidity} {b : BankId} {cur : Cursor} {it : Item} {st : EngineState}

theorem PromoList.work_of_quiet (hs : p.successor = (p, .none)) (hc : p.count v = (p, .none))
    (hr : p.countReleasing v = p) : p.work st true v = (p, .none) := by
  by_cases ha : st.advancesItems = true
  · rw [PromoList.work_of_count ha hs, hc]
  · unfold PromoList.work
    rw [if_neg ha, hr, ite_self]

theorem PromoList.countReleasing_of_empty (hb : p.play.bank = none ∨ p.play.cursor = none) :
    p.countReleasing v = p := by
  have none : p.play.cursor = none ∨ p.current = none := by
    rcases hb with h | h
    · right
      simp only [PromoList.current, h]
    · exact .inl h
  unfold PromoList.countReleasing
  split
  · rename_i hc hi
    rcases none with h | h
    · cases h.symm.trans hc
    · cases h.symm.trans hi
  · rfl

theorem PromoList.countReleasing_of_stopped (hc : p.play.cursor = some cur)
    (hr : ¬ (cur.phase = .running ∧ ¬ cur.done = true)) : p.countReleasing v = p := by
  unfold PromoList.countReleasing
  split
  · rename_i c _ hc' _
    rw [hc] at hc'
    obtain rfl := Option.some.inj hc'
    exact if_neg hr
  · rfl

theorem PromoList.countReleasing_of_running (hb : p.play.bank = some b) (hc : p.play.cursor = some cur)
    (hi : (p.bank b).items[cur.index]? = some it) (hr : cur.phase = .running) (hd : ¬ cur.done = true) :
    p.countReleasing v = p.at b (countedCursor cur (it.source.valid v)) p.play.started := by
  have item : p.current = some it := (PromoList.current_of_at hb hc).trans hi
  rw [PromoList.at_eq_setCursor hb, countedCursor_eq_tick]
  simp only [PromoList.countReleasing, hc, item]
  exact if_pos ⟨hr, hd⟩

theorem countedCursor_phase (c : Cursor) (valid : Bool) : (countedCursor c valid).phase = c.phase := rfl

theorem PromoList.work_of_release (carries : Bool) : p.work .release carries v = (p.countReleasing v, .none) := rfl

/-- A running item that does not end at the event counts (R78, R79). -/
theorem PromoList.count_of_going (hb : p.play.bank = some b) (hc : p.play.cursor = some cur)
    (hi : (p.bank b).items[cur.index]? = some it) (hr : cur.phase = .running)
    (hz : ¬ ((countedCursor cur (it.source.valid v)).duration = 0 ∨
      (countedCursor cur (it.source.valid v)).gate = some 0)) :
    p.count v = (p.at b (countedCursor cur (it.source.valid v)) p.play.started, .none) := by
  have shown : p.shown v b cur it = countedCursor cur (it.source.valid v) := if_neg hz
  have quiet : p.reportOf b (countedCursor cur (it.source.valid v)) = .none := by
    unfold PromoList.reportOf
    rw [countedCursor_phase, hr]
    rfl
  rw [PromoList.count_of_running hb hc hi hr, shown, quiet]

end

/-- Settles O56: the engine by its state, the list by what its current item does at the event. -/
theorem runningFramesGoOn : Obligations.RunningFramesGoOn := by
  intro ch inp r s0 s c e p v t0 last holds moves next hr on
  have advanced : e.advance = moves := by
    unfold Engine.advance Engine.showMove
    cases hm : e.move with
    | none => simp only [moves, hm]
    | some mv => simp only [moves, hm]
  have onward (emptyList : Bool) (x : Option JunctionRecord) (y : Option Marker) :
      { e.onward emptyList with record := x, marker := y } = { next with record := x, marker := y } := by
    have counters := on.counters
    cases hs : e.state with
    | idle => exact absurd hs on.running.1
    | armed => exact absurd hs on.running.2
    | squeeze =>
      have credit := fallen_of_not_expires (counters (.inl hs)).1
      by_cases hk : e.m ≤ e.k + 1
      · simp only [next, hs, last, decide_eq_true hk, if_true]
        rw [Engine.onward_squeeze_last hs hr hk, credit]
      · simp only [next, hs, last, decide_eq_false hk, Bool.false_eq_true, if_false]
        rw [Engine.onward_squeeze_on hs hk, credit, advanced]
    | held =>
      obtain ⟨credit, watch⟩ := counters (.inr hs)
      simp only [next, hs]
      rw [Engine.onward_held hs, fallen_of_not_expires credit, fallen_of_not_expires (watch hs), hs]
    | release =>
      simp only [next, hs]
      rw [Engine.onward_release hs, advanced]
    | takeover =>
      by_cases hk : e.m ≤ e.k + 1
      · simp only [next, hs, last, decide_eq_true hk, if_true]
        rw [Engine.onward_takeover_last hs hk]
      · simp only [next, hs, last, decide_eq_false hk, Bool.false_eq_true, if_false]
        rw [Engine.onward_takeover_on hs hk, advanced]
    | promoFull =>
      simp only [next, hs]
      rw [Engine.onward_promoFull hs, hs]
  have turn := ChannelState.turn_of_runsOn (c := c) (v := v) on
  have marks : (c.turn v).marks = (p.work e.state true v).2.exhausted := by
    rw [ChannelState.turn_marks_of_runsOn on, turn]
  have ran : (c.runOn v).1 = _ := c.runOn_listed v
  rw [marks, turn] at ran
  obtain ⟨w, t, sweep, frame, tail⟩ := frame_of_goes (ch := ch) (inp := inp) (s := s0) on.running.1 on.running.2
    (congrArg (fun t : Turn => t.result.ending) turn)
  refine ⟨(c.runOn v).1,
    if (p.work e.state true v).2.started then countedStart r.itemsPlayed else r.itemsPlayed, w, t, sweep, frame, tail, ?_, ?_⟩
  · have worked : c.Worked (c.runOn v).1 := by
      rw [ran]
      exact ChannelState.worked_listed ..
    have tally : (c.runOn v).1.tally = true := by
      have running := Engine.work_running (items := true) (emptyList := c.emptyList) on.running.1 on.running.2
      rw [Engine.work_of_runsOn on] at running
      rw [ChannelState.runOn_tally, turn]
      exact Engine.tally_of_running running
    have record (started : Bool) :
        (if started then
          (e.onward c.emptyList).record.map fun j : JunctionRecord => { j with itemsPlayed := countedStart j.itemsPlayed }
        else (e.onward c.emptyList).record) =
          some { r with itemsPlayed := if started then countedStart r.itemsPlayed else r.itemsPlayed } := by
      rw [Engine.onward_record, hr]
      cases started <;> rfl
    have engine : (c.runOn v).1.engine = { e.onward c.emptyList with
        record := some
          { r with
            itemsPlayed := if (p.work e.state true v).2.started then countedStart r.itemsPlayed else r.itemsPlayed }
        marker := (c.runOn v).1.engine.marker } := by
      rw [ran, ← record]
      rfl
    exact worked.trans (congrArg₂ (fun g tl =>
      { c with
        engine := g, tally := tl, promo := (c.runOn v).1.promo
        reporter := { c.reporter with flags := (c.runOn v).1.reporter.flags } }) (engine.trans (onward _ _ _)) tally)
  · intro quiet
    have marker (items : p.work e.state true v = (p, .none)) : (c.runOn v).1.engine.marker = (e.onward c.emptyList).marker := by
      rw [ran, items]
      rfl
    refine ⟨fun hb => ?_, fun b cur it hb hc hi => ?_⟩
    · have empty : c.emptyList = true := by
        unfold ChannelState.emptyList
        rw [show c.promo.play.bank = none from hb]
        rfl
      have work : p.work e.state true v = (p, .none) :=
        PromoList.work_of_quiet (PromoList.successor_of_empty (.inl hb)) (PromoList.count_of_empty (.inl hb))
          (PromoList.countReleasing_of_empty (.inl hb))
      refine ⟨by rw [ran, work]; rfl, by rw [work]; rfl, by rw [ran, work]; rfl, ?_⟩
      rw [marker work, empty, Engine.onward_empty_marker hr]
      simp only [holds, last, Bool.and_eq_true, decide_eq_true_eq]
    · intro cur' atZero
      have full : c.emptyList = false := by
        unfold ChannelState.emptyList
        rw [show c.promo.play.bank = some b from hb]
        rfl
      have quietOf {p' : PromoList} (work : p.work e.state true v = (p', .none)) : quiet p' := by
        refine ⟨by rw [ran, work]; rfl, by rw [work]; rfl, ?_, by rw [ran, work]; rfl⟩
        rw [← e.onward_marker, ran, work, full]
        rfl
      have release (hs : e.state = .release) {p' : PromoList} (h : p.countReleasing v = p') : quiet p' :=
        quietOf (by rw [hs, PromoList.work_of_release, h])
      have advances (hs : e.state ≠ .release) : e.state.advancesItems = true := by
        have running := on.running
        cases hst : e.state with
        | idle => exact absurd hst running.1
        | armed => exact absurd hst running.2
        | release => exact absurd hst hs
        | squeeze | held | takeover | promoFull => rfl
      refine ⟨fun exhausted => quietOf ?_, fun hs running going => quietOf ?_, fun hs running going => release hs ?_,
        fun hs stopped => release hs ?_⟩
      · exact PromoList.work_of_quiet (PromoList.successor_of_unfinished hc (by rw [exhausted]; decide))
          (PromoList.count_of_stopped hc (by rw [exhausted]; decide))
          (PromoList.countReleasing_of_stopped hc (by rw [exhausted]; exact nofun))
      · rw [PromoList.work_of_count (advances hs) (PromoList.successor_of_unfinished hc (by rw [running]; decide))]
        exact PromoList.count_of_going hb hc hi running going
      · exact PromoList.countReleasing_of_running hb hc hi running fun hd => going ((Cursor.done_iff cur).1 hd)
      · refine PromoList.countReleasing_of_stopped hc fun h => ?_
        rcases stopped with finished | zero
        · rw [finished] at h
          cases h.1
        · exact h.2 ((Cursor.done_iff cur).2 zero)

end Sys2Proof.Machine
end

section
/-!
PROOFS. The frame of a start event (O26): the count of the first item, and the junction that misses.
-/

namespace Sys2Proof.Machine

theorem ChannelState.frameCounted_play (c : ChannelState) : c.frameCounted.promo.play = c.promo.play := by
  unfold ChannelState.frameCounted
  split
  · rfl
  · rename_i x _
    split
    · cases x.bank <;> rfl
    · rfl

/-- The arm test leaves the promo list (R15). -/
theorem armTest_promo (ch : Channel) (s : State) : ((armTest ch s).chan ch).promo = (s.chan ch).promo := by
  have armed (e : Entry) (rest : List Entry) : ((armEntry ch e rest s).chan ch).promo = (s.chan ch).promo := by
    have own : (s.armed ch e rest).chan ch = _ := State.chan_modChan_same ..
    obtain ⟨_, _, fetched, -⟩ := fetchArrival_own (ch := ch) (slot := e.slot) (s := s.armed ch e rest)
      (r := .opening e (s.library.need e.slot)) (by rw [own]; rfl) rfl rfl
    obtain ⟨f, -, requested⟩ := (agreesButGrants_scalerRequest ch (s.library.need e.slot) e.start
      (fetchArrival ch e.slot (s.armed ch e rest))).2.2.2.2.2.2.2 ch
    rw [armEntry_eq, requested, fetched, own]
    rfl
  unfold armTest
  dsimp only
  split
  · split
    · exact armed ..
    · rfl
  · rfl

section
variable {c : ChannelState} {v : PromoValidity} {b : BankId} {cur : Cursor} {it : Item}

theorem ChannelState.countItem_eq_listed (c : ChannelState) (v : PromoValidity) :
    c.countItem v =
      c.listed (c.promo.count v).1 (c.promo.count v).2.started (c.promo.count v).2.exhausted
        (c.promo.count v).2.underrun := c.takeList_eq_listed ..

theorem ChannelState.countItem_of_empty (h : c.promo.play.cursor = none) : c.countItem v = c := by
  rw [ChannelState.countItem_eq_listed, PromoList.count_of_empty (.inr h)]
  rfl

/-- The first item of a junction runs as it starts (R77). -/
theorem ChannelState.startJunction_cursor (hp : c.promo.play = .none) {g : Nat}
    (hc : ((c.assignScalers g).startJunction b).promo.play.cursor = some cur) :
    cur.phase = .running ∧ ((c.assignScalers g).startJunction b).promo.play.started = 1 := by
  rw [ChannelState.startJunction_promo] at hc ⊢
  unfold ChannelState.bankStep at hc ⊢
  rw [ChannelState.assignScalers_promo] at hc ⊢
  split at hc
  · rename_i ready
    obtain ⟨i, -, rfl⟩ := Option.map_eq_some_iff.1 hc
    exact ⟨rfl, by rw [if_pos ready]; rfl⟩
  · dsimp only at hc
    rw [hp] at hc
    cases hc

/-- The first item counts at the event at which it starts (R78, R79). -/
theorem ChannelState.countItem_of_running (hb : c.promo.play.bank = some b) (hc : c.promo.play.cursor = some cur)
    (hi : (c.promo.bank b).items[cur.index]? = some it) (hr : cur.phase = .running) :
    c.countItem v =
      c.listed (c.promo.at b (c.promo.shown v b cur it) c.promo.play.started) false
        (decide ((c.promo.shown v b cur it).phase = .exhausted))
        (decide ((c.promo.shown v b cur it).phase = .exhausted) && (c.promo.bank b).chain) := by
  rw [ChannelState.countItem_eq_listed, PromoList.count_of_running hb hc hi hr]
  rfl

end

section
variable {ch : Channel} {s t : State} {v : PromoValidity} {o : JunctionOutcome}

/-- A start event that begins counts the first item (R26, R78). -/
theorem junctionFrame_of_begun (ha : (s.chan ch).engine.state = .armed) (hd : startDue ch s = true)
    (he : startEvent ch s = (t, .goes)) : (junctionFrame ch v s).1 = t.modChan ch (·.countItem v) := by
  unfold junctionFrame
  rw [ha]
  dsimp only
  rw [if_pos hd, he]

/-- A start event that misses ends the junction (R28). -/
theorem junctionFrame_of_missed (ha : (s.chan ch).engine.state = .armed) (hd : startDue ch s = true)
    (he : startEvent ch s = (t, .cut o)) : (junctionFrame ch v s).1 = junctionEnd ch o t := by
  unfold junctionFrame
  rw [ha]
  dsimp only
  rw [if_pos hd, he]
  exact Eq.refl (finishEnd ch (.cut o) t)

end

/-- Settles O26: a start event that begins counts the first item and keeps the arm test out; one that misses has armed
what it arms, and holds no item. -/
theorem startFramesBeginTheJunction : Obligations.StartFramesBeginTheJunction := by
  intro ch inp r s v armed hr hd sound play
  have found : (s.atFrame ch inp).chan ch = (s.chan ch).frameCounted := s.atFrame_chan ch inp
  have armed' : ((s.atFrame ch inp).chan ch).engine.state = .armed := by
    rw [found, ChannelState.frameCounted_engine, armed]
  have hr' : ((s.atFrame ch inp).chan ch).engine.record = some r := by
    rw [found, ChannelState.frameCounted_engine, hr]
  have hd' : ahead r.start (s.atFrame ch inp).ref.sfc = false := by
    rw [State.atFrame_ref, hd]
  have due : startDue ch (s.atFrame ch inp) = true := by
    rw [startDue_of_armed armed' hr', hd']
    rfl
  have own := claimed_own_of_record hr'
  have tail := s.framed_tail ch inp
  have empty : (((s.atFrame ch inp).claimed ch).chan ch).promo.play = .none := by
    rw [own, found]
    exact (ChannelState.frameCounted_play _).trans play
  by_cases hg : (s.atFrame ch inp).startGrant ch = 0 ∧
      (r.requested ≠ 0 ∨ (r.template.getD fallbackLayout).pgmTarget ≠ fullFrame)
  · have missed := exec_startEvent_of_misses armed' hr' hd' hg
    obtain ⟨u, ends, ended, -, promo, -⟩ := junctionEnd_of_worked
      (s := (s.atFrame ch inp).claimed ch) (ch := ch)
      (c := { ((s.atFrame ch inp).claimed ch).chan ch with
        reporter := (((s.atFrame ch inp).claimed ch).chan ch).reporter.raise .missed })
      rfl (claimed_record hr') .missedNoScaler
    have unplayed : ((armTest ch u).chan ch).promo.play.cursor = none := by
      rw [armTest_promo, promo]
      rfl
    have settled : s.frameSettled ch inp = missSweep ch (armTest ch u) := by
      rw [State.frameSettled, junctionFrame_of_missed armed' due (startEvent_of_misses hr' hg)]
      exact (congrArg (fun t => missSweep ch (armTest ch t)) ends).trans (congrArg _ (armTest_armTest ch u))
    have found : (u.chan ch).schedule.Sound u.ref.sfc := by
      rw [ended.schedule, ended.kept.ref, own, (othersKept_claimed ch _).ref, State.atFrame_ref, found,
        ChannelState.frameCounted_schedule]
      exact sound
    refine ⟨_, (armTest ch u).chan ch, armTest ch u, _, _, missed.trans (congrArg Host.Outcome.next ends),
      fun _ => rfl, fun b cur it _ hc => ?_, ?_, exec_missedBusy_armTest found, exec_channelFrameEvent ch inp s,
      settled ▸ tail⟩
    · rw [unplayed] at hc
      cases hc
    · exact congrArg Host.Outcome.next
        ((congrArg (armTest ch) (State.modChan_chan (armTest ch u) ch)).trans (armTest_armTest ch u))
  · have begun := exec_startEvent_of_begins armed' hr' hd' hg
    have counted := junctionFrame_of_begun (v := s.frameValidity inp) armed' due (startEvent_of_begins hr' hg)
    generalize hu : (((s.atFrame ch inp).claimed ch).modChan ch fun c =>
      (c.assignScalers ((s.atFrame ch inp).startGrant ch)).startJunction r.firstBank) = u at begun counted
    have started : u.chan ch = _ := hu ▸ State.chan_modChan_same ..
    have busy : ((u.modChan ch (·.countItem (s.frameValidity inp))).chan ch).engine.state ≠ .idle := by
      rw [State.chan_modChan_same, ChannelState.countItem_eq_listed, started]
      rcases startJunction_engine_state ((((s.atFrame ch inp).claimed ch).chan ch).assignScalers
        ((s.atFrame ch inp).startGrant ch)) r.firstBank with h | h
      · exact fun idle => nomatch h.symm.trans idle
      · exact fun idle => nomatch h.symm.trans idle
    rw [State.frameSettled, counted, armTest_of_busy busy] at tail
    refine ⟨u, (u.chan ch).countItem (s.frameValidity inp), u.modChan ch (·.countItem (s.frameValidity inp)), _, _,
      begun, ChannelState.countItem_of_empty, ?_, congrArg Host.Outcome.next (armTest_of_busy busy),
      exec_missedBusy_of_busy busy, exec_channelFrameEvent ch inp s, tail⟩
    intro b cur it hb hc hi cur'
    obtain ⟨running, one⟩ : cur.phase = .running ∧ (u.chan ch).promo.play.started = 1 := by
      rw [started] at hc ⊢
      exact ChannelState.startJunction_cursor empty hc
    rw [ChannelState.countItem_of_running hb hc hi running, one]
    rfl

end Sys2Proof.Machine
end


section
/-!
PROOFS. The notices of a SET_TIME (O47): what one notice makes of its channel, and that each channel has its own notice
and no more than grants from the others'.
-/

namespace Sys2Proof.Machine

/-! ### Channels up to the grant -/

section
variable {ch c : Channel} {s t : State}

theorem AgreesButGrants.upToGrant (h : AgreesButGrants s t) (c : Channel) :
    (t.chan c).upToGrant = (s.chan c).upToGrant := by
  obtain ⟨_, -, -, -, -, -, -, own⟩ := h
  obtain ⟨f, ⟨n, rfl⟩, ht⟩ := own c
  rw [ht, ChannelState.upToGrant, Engine.modRecord_comp]
  rfl

theorem State.StandsOrGranted.upToGrant (h : State.StandsOrGranted c s t) :
    (t.chan c).upToGrant = (s.chan c).upToGrant := by
  rcases h with ⟨chan, -⟩ | ⟨-, -, -, chan⟩
  · rw [chan]
  · rw [chan, ChannelState.upToGrant, Engine.modRecord_comp]
    rfl

theorem ChannelState.upToGrant_record {x : ChannelState} {r : JunctionRecord} (hr : x.engine.record = some r) :
    x.upToGrant.engine.record = some { r with granted := 0 } := by
  simp [ChannelState.upToGrant, Engine.modRecord, hr]

/-- A channel known up to its grant has a record known up to it. -/
theorem ChannelState.record_of_upToGrant {x y : ChannelState} {r : JunctionRecord} (h : y.upToGrant = x)
    (hr : x.engine.record = some r) : ∃ r', y.engine.record = some r' ∧ r = { r' with granted := 0 } := by
  have record : y.engine.record.map ({ · with granted := 0 }) = some r := by
    rw [← hr, ← h]
    rfl
  obtain ⟨r', hr', rfl⟩ := Option.map_eq_some_iff.1 record
  exact ⟨r', hr', rfl⟩

end

/-! ### One notice -/

/-- An entry that a time jump does not miss (R17). -/
def Entry.keptAt (v : FrameValue) (e : Entry) : Bool := ahead e.start v || decide (e.start = v)

/-- An entry without its lateness (R17). -/
def Entry.onTime (e : Entry) : Entry := { e with late := false, lateness := 0 }

/-- The entries a time jump keeps, in their new order (R4, R17). -/
def Schedule.jumped (v : FrameValue) (x : Schedule) : Schedule :=
  { x with entries := orderEntries v ((x.entries.filter (Entry.keptAt v)).map Entry.onTime) }

/-- A channel after the schedule's side of a time-jump notice (R17). -/
def ChannelState.jumped (v : FrameValue) (x : ChannelState) : ChannelState :=
  { x with
    schedule := x.schedule.jumped v
    reporter :=
      (x.reporter.missAll .missedTimeJump (x.schedule.entries.filter fun e => !e.keptAt v)).raise .timeJump }

/-- A channel after the engine's side of a time-jump notice (R18). -/
def ChannelState.calmed (x : ChannelState) : ChannelState :=
  if x.engine.state = .armed then { x with engine := x.engine.modRecord ({ · with lateness := 0 }) } else x

/-- What one notice of a SET_TIME to `v` makes of its channel: a junction goes on, an IDLE engine waits, or it arms the
first entry kept (R14, R17, R18). -/
inductive ChannelState.Jump (v : FrameValue) (x : ChannelState) : ChannelState → Prop
  | runs (busy : x.engine.state ≠ .idle) : Jump v x (x.jumped v).calmed
  | waits (idle : x.engine.state = .idle)
      (far : ∀ e rest, (x.schedule.jumped v).entries = e :: rest → nearEnough e.start v = false) :
      Jump v x (x.jumped v)
  | arms (idle : x.engine.state = .idle) (e : Entry) (rest : List Entry) (n : Nat) (template : Option Template)
      (fallbackUsed : Bool) (f : FetchState) (q : Reporter) (first : (x.schedule.jumped v).entries = e :: rest)
      (near : nearEnough e.start v = true)
      (served : q = (x.jumped v).reporter ∨ q = (x.jumped v).reporter.raise .fallbackUsed) :
      Jump v x
        { x.jumped v with
          engine :=
            { x.engine with
              state := .armed
              record :=
                some
                  { JunctionRecord.opening e n with template := template, fallbackUsed := fallbackUsed, lateness := 0 } }
          schedule := { x.schedule with entries := rest }, tally := false, fetch := f, reporter := q }

section
variable {ch : Channel} {s : State}

theorem jumpSchedule_chan (ch : Channel) (s : State) :
    (jumpSchedule ch s).chan ch = (s.chan ch).jumped s.ref.sfc := by
  unfold jumpSchedule
  dsimp only
  rw [missUnless_eq, State.raise, State.modReporter, State.modChan_modChan, State.modChan_modChan,
    State.chan_modChan_same]
  rfl

theorem jumpSchedule_ref (ch : Channel) (s : State) : (jumpSchedule ch s).ref = s.ref := by
  have missed := (State.OthersKept.missUnless ch .missedTimeJump
    (fun e => ahead e.start s.ref.sfc || decide (e.start = s.ref.sfc)) s).ref
  unfold jumpSchedule
  exact missed

theorem jumpChannel_chan (s : State) (ch : Channel) :
    (jumpChannel s ch).chan ch = ((armTest ch (jumpSchedule ch s)).chan ch).calmed := State.chan_modChan_same ..

/-- The reporter of a channel whose fetch arrives: FALLBACK_USED at the most (R114). -/
theorem fetchArrival_reporter (ch : Channel) (slot : Nat) (s : State) :
    ((fetchArrival ch slot s).chan ch).reporter = (s.chan ch).reporter ∨
      ((fetchArrival ch slot s).chan ch).reporter = (s.chan ch).reporter.raise .fallbackUsed := by
  cases ho : s.library.operatesOn slot with
  | true =>
    rw [fetchArrival_of_operated ho]
    exact .inl (State.setFetch_chan_reporter ..)
  | false =>
    by_cases hf : s.library.operation = none ∧ s.library.fetchQueue = []
    · rw [fetchArrival_of_free ho hf, State.chan_modChan_same]
      unfold ChannelState.served
      cases s.library.content slot
      · exact .inr rfl
      · exact .inl (by simp)
    · rw [fetchArrival_of_busy ho hf]
      exact .inl (State.setFetch_chan_reporter ..)

theorem ChannelState.upToGrant_calmed (x : ChannelState) : x.calmed.upToGrant = x.upToGrant.calmed := by
  unfold ChannelState.calmed
  by_cases h : x.engine.state = .armed
  · rw [if_pos h, if_pos (show x.upToGrant.engine.state = .armed from h)]
    simp only [ChannelState.upToGrant, Engine.modRecord_comp]
  · rw [if_neg h, if_neg (show ¬ x.upToGrant.engine.state = .armed from h)]

theorem ChannelState.calmed_of_ne {x : ChannelState} (h : x.engine.state ≠ .armed) : x.calmed = x := if_neg h

theorem ChannelState.calmed_of_armed {x : ChannelState} (h : x.engine.state = .armed) :
    x.calmed = { x with engine := x.engine.modRecord ({ · with lateness := 0 }) } := if_pos h

/-- The arm test of an IDLE engine with no entry near enough (R14). -/
theorem armTest_of_far (hi : (s.chan ch).engine.state = .idle)
    (hf : ∀ e rest, (s.chan ch).schedule.entries = e :: rest → nearEnough e.start s.ref.sfc = false) :
    armTest ch s = s := by
  cases he : (s.chan ch).schedule.entries with
  | nil => simp only [armTest, hi, he]
  | cons e rest => simp [armTest, hi, he, hf e rest he]

/-- The notice of a SET_TIME, by what it makes of its channel up to the grant (R14, R17, R18). -/
theorem jumpChannel_own (s : State) (ch : Channel) :
    ChannelState.Jump s.ref.sfc (s.chan ch).upToGrant ((jumpChannel s ch).chan ch).upToGrant := by
  have jumped := jumpSchedule_chan ch s
  rw [jumpChannel_chan, ChannelState.upToGrant_calmed]
  by_cases idle : (s.chan ch).engine.state = .idle
  · have idle' : ((jumpSchedule ch s).chan ch).engine.state = .idle := by
      rw [jumped]
      exact idle
    by_cases far : ∀ e rest, ((s.chan ch).schedule.jumped s.ref.sfc).entries = e :: rest →
        nearEnough e.start s.ref.sfc = false
    · rw [armTest_of_far idle' (by rw [jumped, jumpSchedule_ref]; exact far), jumped,
        ChannelState.calmed_of_ne (x := ((s.chan ch).jumped s.ref.sfc).upToGrant)
          (fun armed => EngineState.noConfusion (idle.symm.trans armed))]
      exact .waits idle far
    · simp only [not_forall, Bool.not_eq_false] at far
      obtain ⟨e, rest, he, near⟩ := far
      have he' : ((jumpSchedule ch s).chan ch).schedule.entries = e :: rest := by
        rw [jumped]
        exact he
      rw [armTest_of_near idle' he' (by rwa [jumpSchedule_ref]), armEntry_eq,
        (agreesButGrants_scalerRequest ..).upToGrant]
      have own : ((jumpSchedule ch s).armed ch e rest).chan ch = _ := State.chan_modChan_same ..
      obtain ⟨template, fallbackUsed, fetched, -⟩ := fetchArrival_own (ch := ch) (slot := e.slot)
        (s := (jumpSchedule ch s).armed ch e rest)
        (r := .opening e ((jumpSchedule ch s).library.need e.slot)) (by rw [own]; rfl) rfl rfl
      have served := fetchArrival_reporter ch e.slot ((jumpSchedule ch s).armed ch e rest)
      rw [own, jumped] at served fetched
      rw [fetched]
      exact .arms (x := (s.chan ch).upToGrant) idle e rest _ template fallbackUsed _ _ he near served
  · rw [armTest_of_busy (by rw [jumped]; exact idle), jumped]
    exact .runs idle

end

/-! ### The notices of one SET_TIME -/

theorem nodup_noticeChannels (n : Nat) : (noticeChannels n).Nodup := by
  have every : ∀ l ∈ channelOrders, l.Nodup := by decide
  unfold noticeChannels
  cases ho : channelOrders[Config.noticeOrder n % 24]? with
  | none => decide
  | some l => exact every l (List.mem_of_getElem? ho)

theorem jumps_upToGrant_of_not_mem {l : List Channel} {c : Channel} (h : c ∉ l) (s : State) :
    ((l.foldl jumpChannel s).chan c).upToGrant = (s.chan c).upToGrant := by
  induction l generalizing s with
  | nil => rfl
  | cons ch l ih =>
    have ne : c ≠ ch := fun e => h (e ▸ List.mem_cons_self)
    have others := (State.OthersKept.jumpChannel s ch).others c ne
    exact (ih (fun m => h (List.mem_cons_of_mem _ m)) _).trans (State.StandsOrGranted.upToGrant others)

/-- Each channel has its notice once, whatever the order of the notices (R98). -/
theorem jumps_own {l : List Channel} (hn : l.Nodup) {c : Channel} (hc : c ∈ l) (s : State) :
    ChannelState.Jump s.ref.sfc (s.chan c).upToGrant ((l.foldl jumpChannel s).chan c).upToGrant := by
  induction l generalizing s with
  | nil => exact absurd hc List.not_mem_nil
  | cons ch l ih =>
    obtain ⟨out, rest⟩ := List.nodup_cons.1 hn
    have kept := State.OthersKept.jumpChannel s ch
    rw [List.foldl_cons]
    by_cases h : c = ch
    · subst h
      rw [jumps_upToGrant_of_not_mem out]
      exact jumpChannel_own s c
    · have found := ih rest ((List.mem_cons.1 hc).resolve_left h) (jumpChannel s ch)
      rwa [kept.ref, State.StandsOrGranted.upToGrant (kept.others c h)] at found

theorem setTimeBody_own (v : FrameValue) (s : State) (c : Channel) :
    ChannelState.Jump v (s.chan c).upToGrant (((setTimeBody v s).1.chan c).upToGrant) := by
  rw [setTimeBody_fst, (agreesButGrants_grantTest _).upToGrant]
  exact jumps_own (nodup_noticeChannels _) (mem_noticeChannels _ c) (s.atTime v)

/-! ### What a jump leaves -/

section
variable {v : FrameValue} {x y : ChannelState}

theorem Schedule.mem_jumped {d : Schedule} {e : Entry} :
    e ∈ (d.jumped v).entries ↔ ∃ f ∈ d.entries, f.keptAt v = true ∧ f.onTime = e := by
  rw [Schedule.jumped, mem_orderEntries, List.mem_map]
  simp only [List.mem_filter, and_assoc]

namespace ChannelState.Jump

/-- The entries after a jump are those kept, but for the one that armed. -/
theorem entries (h : x.Jump v y) :
    y.schedule.tolerance = x.schedule.tolerance ∧ y.schedule.entries.Sublist (x.schedule.jumped v).entries ∧
      (x.engine.state ≠ .idle → y.schedule.entries = (x.schedule.jumped v).entries) := by
  cases h with
  | runs busy =>
    unfold ChannelState.calmed
    split <;> exact ⟨rfl, .refl _, fun _ => rfl⟩
  | waits idle far => exact ⟨rfl, .refl _, fun _ => rfl⟩
  | arms idle e rest _ _ _ _ _ first =>
    refine ⟨rfl, ?_, fun busy => absurd idle busy⟩
    rw [first]
    exact List.sublist_cons_self e rest

theorem stands (h : x.Jump v y) : y.promo = x.promo ∧ y.composer = x.composer ∧ y.output = x.output := by
  cases h with
  | runs busy =>
    unfold ChannelState.calmed
    split <;> exact ⟨rfl, rfl, rfl⟩
  | waits idle far => exact ⟨rfl, rfl, rfl⟩
  | arms => exact ⟨rfl, rfl, rfl⟩

/-- The reporter after a jump: the entries missed, TIME_JUMP, and FALLBACK_USED at the most. -/
theorem reporter (h : x.Jump v y) :
    y.reporter = (x.jumped v).reporter ∨ y.reporter = (x.jumped v).reporter.raise .fallbackUsed := by
  cases h with
  | runs busy =>
    unfold ChannelState.calmed
    split <;> exact .inl rfl
  | waits idle far => exact .inl rfl
  | arms _ _ _ _ _ _ _ _ _ _ served => exact served

end ChannelState.Jump

theorem Reporter.missAll_results (r : Reporter) (o : JunctionOutcome) (es : List Entry) :
    (r.missAll o es).results = r.results := by
  by_cases he : es = []
  · rw [he]
    rfl
  · rw [Reporter.missAll_of_ne_nil r o he]

theorem Reporter.missAll_last (r : Reporter) (o : JunctionOutcome) (es : List Entry) :
    (r.missAll o es).last = if es = [] then r.last else es.getLast?.map (missRecord · o) := by
  split
  · rename_i he
    rw [he]
    rfl
  · rename_i he
    rw [Reporter.missAll_of_ne_nil r o he]

theorem Reporter.missAll_missed (r : Reporter) (o : JunctionOutcome) {es : List Entry} (he : es ≠ []) :
    (r.missAll o es).flag .missed = true := by
  rw [Reporter.missAll_of_ne_nil r o he]
  exact r.flag_raise_self .missed

namespace ChannelState.Jump

/-- What the reporter tells of a jump (R17, R177, R178). -/
theorem reported (h : x.Jump v y) :
    let missed := x.schedule.entries.filter fun e => !e.keptAt v
    y.reporter.results = x.reporter.results ∧
      y.reporter.last =
        (if missed = [] then x.reporter.last else missed.getLast?.map (missRecord · .missedTimeJump)) ∧
      y.reporter.flag .timeJump = true ∧ (missed ≠ [] → y.reporter.flag .missed = true) := by
  intro missed
  have results := x.reporter.missAll_results .missedTimeJump missed
  have last := x.reporter.missAll_last .missedTimeJump missed
  have jump : (x.jumped v).reporter.flag .timeJump = true := Reporter.flag_raise_self ..
  have miss (he : missed ≠ []) : (x.jumped v).reporter.flag .missed = true :=
    (Reporter.flag_raise_of_ne _ (by decide)).trans (x.reporter.missAll_missed _ he)
  rcases h.reporter with same | raised
  · rw [same]
    exact ⟨results, last, jump, miss⟩
  · rw [raised]
    exact ⟨results, last, (Reporter.flag_raise_of_ne _ (by decide)).trans jump,
      fun he => (Reporter.flag_raise_of_ne _ (by decide)).trans (miss he)⟩

/-- An IDLE engine with no kept entry near enough waits (R14). -/
theorem far (h : x.Jump v y) (idle : x.engine.state = .idle)
    (far : ∀ e rest, (x.schedule.jumped v).entries = e :: rest → nearEnough e.start v = false) :
    y = x.jumped v := by
  cases h with
  | runs busy => exact absurd idle busy
  | waits => rfl
  | arms _ e rest _ _ _ _ _ first near =>
    rw [far e rest first] at near
    cases near

/-- An IDLE engine with a first kept entry near enough arms it, on time (R14, R15). -/
theorem near (h : x.Jump v y) (idle : x.engine.state = .idle) {e : Entry} {rest : List Entry}
    (first : (x.schedule.jumped v).entries = e :: rest) (near : nearEnough e.start v = true) :
    y.engine.state = .armed ∧ y.schedule.entries = rest ∧
      ∃ r, y.engine.record = some r ∧ r.start = e.start ∧ r.tag = e.tag ∧ r.slot = e.slot ∧
        r.firstBank = e.firstBank ∧ r.credit = e.credit ∧ r.watch = e.watch ∧ r.endAction = e.endAction ∧
        r.lateness = 0 := by
  cases h with
  | runs busy => exact absurd idle busy
  | waits _ far =>
    rw [far e rest first] at near
    cases near
  | arms _ f l _ _ _ _ _ first' =>
    rw [first] at first'
    cases first'
    exact ⟨rfl, rfl, _, rfl, rfl, rfl, rfl, rfl, rfl, rfl, rfl, rfl⟩

/-- A junction past its start goes on (R18). -/
theorem running (h : x.Jump v y) (idle : x.engine.state ≠ .idle) (armed : x.engine.state ≠ .armed) :
    y.engine = x.engine := by
  cases h with
  | runs =>
    rw [ChannelState.calmed_of_ne (x := x.jumped v) armed]
    rfl
  | waits idle' => exact absurd idle' idle
  | arms idle' => exact absurd idle' idle

/-- An armed junction keeps its start frame and is no longer late (R18). -/
theorem armed (h : x.Jump v y) (armed : x.engine.state = .armed) {r : JunctionRecord}
    (hr : x.engine.record = some r) : y.engine = { x.engine with record := some { r with lateness := 0 } } := by
  cases h with
  | runs =>
    rw [ChannelState.calmed_of_armed (x := x.jumped v) armed]
    simp [ChannelState.jumped, Engine.modRecord, hr]
  | waits idle => cases armed.symm.trans idle
  | arms idle => cases armed.symm.trans idle

end ChannelState.Jump

/-! ### The first entry kept -/

theorem Entry.keptAt_iff {e : Entry} : e.keptAt v = true ↔ ahead e.start v = true ∨ e.start = v := by
  rw [Entry.keptAt, Bool.or_eq_true, decide_eq_true_eq]

/-- A kept entry's place in the order is its distance (R4, R17). -/
theorem Entry.orderKey_of_kept {e : Entry} (h : ahead e.start v = true ∨ e.start = v) :
    orderKey v e.start = (e.start - v).toNat := by
  rcases h with far | rfl
  · simp only [ahead, Bool.and_eq_true, decide_eq_true_eq] at far
    unfold orderKey
    rw [BitVec.toInt_eq_toNat_cond]
    split <;> omega
  · simp [orderKey]

/-- A kept entry more than 12 frames ahead is not near enough (R14). -/
theorem Entry.far_of_kept {e : Entry} (h : ahead e.start v = true ∨ e.start = v) (far : 12 < (e.start - v).toNat) :
    nearEnough e.start v = false := by
  refine Bool.eq_false_iff.2 fun near => ?_
  rcases (nearEnough_iff ..).1 near with behind | close
  · rcases h with front | same
    · cases behind.symm.trans front
    · simp [same] at far
  · omega

theorem Schedule.jumped_sound {d : Schedule} (h : d.Orderable) : (d.jumped v).Sound v :=
  ((h.shrink (y := { d with entries := d.entries.filter (Entry.keptAt v) }) rfl List.filter_sublist).onTime).ordered v

theorem Schedule.Orderable.eq_of_start {d : Schedule} (h : d.Orderable) {e f : Entry} (he : e ∈ d.entries)
    (hf : f ∈ d.entries) (same : e.start = f.start) : e = f := by
  obtain ⟨-, -, -, distinct⟩ := h
  exact List.inj_on_of_nodup_map (List.pairwise_map.2 distinct) he hf same

/-- The nearest of the entries kept comes first (R4). -/
theorem Schedule.jumped_first {d : Schedule} (h : d.Orderable) {e : Entry} (he : e ∈ d.entries)
    (hk : ahead e.start v = true ∨ e.start = v)
    (least : ∀ f ∈ d.entries, ahead f.start v = true ∨ f.start = v → (e.start - v).toNat ≤ (f.start - v).toNat) :
    ∃ rest, (d.jumped v).entries = e.onTime :: rest ∧ ∀ f ∈ rest, f.start ≠ e.start := by
  obtain ⟨-, -, -, sorted⟩ := Schedule.jumped_sound (v := v) h
  have mem : e.onTime ∈ (d.jumped v).entries := Schedule.mem_jumped.2 ⟨e, he, Entry.keptAt_iff.2 hk, rfl⟩
  cases hj : (d.jumped v).entries with
  | nil =>
    rw [hj] at mem
    cases mem
  | cons g rest =>
    obtain ⟨g0, hg0, kept, rfl⟩ := Schedule.mem_jumped.1 (hj ▸ List.mem_cons_self : g ∈ (d.jumped v).entries)
    rw [hj] at mem sorted
    obtain ⟨after, -⟩ := List.pairwise_cons.1 sorted
    rcases List.mem_cons.1 mem with same | later
    · rw [same]
      refine ⟨rest, rfl, fun f hf eq => ?_⟩
      have lt := after f hf
      rw [eq, ← same] at lt
      exact absurd lt (lt_irrefl _)
    · have lt : orderKey v g0.start < orderKey v e.start := after e.onTime later
      have le := least g0 hg0 (Entry.keptAt_iff.1 kept)
      rw [Entry.orderKey_of_kept hk, Entry.orderKey_of_kept (Entry.keptAt_iff.1 kept)] at lt
      omega

end

/-! ### The answer -/

theorem Reporter.append_last (r : Reporter) (a : ResultEntry) : (r.append a).last = r.last := by
  unfold Reporter.append
  split <;> rfl

theorem Reporter.append_flags (r : Reporter) (a : ResultEntry) : (r.append a).flags = r.flags := by
  unfold Reporter.append
  split <;> rfl

theorem Reporter.append_results_congr {r q : Reporter} (h : r.results = q.results) (a : ResultEntry) :
    (r.append a).results = (q.append a).results := by
  unfold Reporter.append
  rw [h]
  split <;> rfl

/-- What a command taken and answered adds to its owning block's work: the arm cleared before, the result appended
after. -/
theorem State.taken_answered (ch : Channel) (kind : Nat) (code : ResultCode) (m : Match) (s t : State) (c : Channel) :
    (∃ p, (s.taking ch).chan c = { s.chan c with parser := p }) ∧
      ∃ q, (t.answering ch kind code m).chan c = { t.chan c with reporter := q } ∧
        q.last = (t.chan c).reporter.last ∧ q.flags = (t.chan c).reporter.flags ∧
        ∀ x : Reporter, (t.chan c).reporter.results = x.results →
          q.results =
            if c = ch then (x.append { kind := kind, code := code, how := m }).results else x.results := by
  by_cases h : c = ch
  · subst h
    refine ⟨⟨_, State.chan_modChan_same ..⟩,
      (t.chan c).reporter.append { kind := kind, code := code, how := m }, State.chan_modChan_same ..,
      Reporter.append_last .., Reporter.append_flags .., fun x hx => ?_⟩
    rw [if_pos rfl]
    exact Reporter.append_results_congr hx _
  · refine ⟨⟨(s.chan c).parser, State.chan_modChan_ne _ h _⟩, (t.chan c).reporter, State.chan_modChan_ne _ h _, rfl, rfl,
      fun x hx => ?_⟩
    rw [if_neg h]
    exact hx

/-- Settles O47: each channel has one notice, which finds it up to its grant as the SET_TIME does. -/
theorem setTimeJumpsEveryChannel : Obligations.SetTimeJumpsEveryChannel := by
  intro ch m v s manager
  have row : exec (.setTime ch m v) s = .next (((setTimeBody v (s.taking ch)).1).answering ch 0x20 .ok m) :=
    congrArg Host.Outcome.next (take_ifManager_eq_answering manager rfl)
  have part := partStands_setTimeBody v (s.taking ch)
  refine ⟨_, row, part.ref, part.protection, part.management, part.aligned, part.pending, part.library, fun c => ?_⟩
  have jump := setTimeBody_own v (s.taking ch) c
  generalize (setTimeBody v (s.taking ch)).1 = t at jump
  obtain ⟨⟨p, found⟩, q, left, last, flags, results⟩ := State.taken_answered ch 0x20 .ok m s t c
  rw [found] at jump
  generalize t.chan c = z at jump left last flags results
  rw [left]
  intro x y kept onTime missed
  obtain ⟨tolerance, entries, all⟩ := jump.entries
  obtain ⟨promo, composer, output⟩ := jump.stands
  obtain ⟨told, recorded, timeJump, miss⟩ := jump.reported
  refine ⟨results x.reporter told, last.trans recorded, fun idle away => ?_, fun idle sound e he hk near least => ?_,
    (Reporter.flag_of_flags flags _).trans timeJump,
    fun ⟨e, he, hk⟩ => (Reporter.flag_of_flags flags _).trans (miss ?_),
    fun e he => ?_, fun e he hk busy => ?_, tolerance, promo, composer, output, fun idle armed => ?_,
    fun r armed hr => ?_⟩
  · have far := jump.far idle fun e rest first => by
      obtain ⟨f, hf, hk, rfl⟩ := Schedule.mem_jumped.1 (first ▸ List.mem_cons_self : e ∈ (x.schedule.jumped v).entries)
      exact Entry.far_of_kept (Entry.keptAt_iff.1 hk) (away f hf (Entry.keptAt_iff.1 hk))
    have waits : z.schedule.entries = (x.schedule.jumped v).entries := congrArg (·.schedule.entries) far
    refine ⟨(congrArg (·.engine.state) far).trans idle, congrArg (·.fetch) far, fun e he hk => ?_⟩
    exact waits ▸ Schedule.mem_jumped.2 ⟨e, he, Entry.keptAt_iff.2 hk, rfl⟩
  · obtain ⟨rest, first, distinct⟩ := Schedule.jumped_first sound.orderable he hk least
    obtain ⟨state, left, r, hr, fields⟩ := jump.near idle first ((nearEnough_iff ..).2 (.inr near))
    obtain ⟨r', hr', rfl⟩ := ChannelState.record_of_upToGrant rfl hr
    have others : z.schedule.entries = rest := left
    refine ⟨state, ⟨r', hr', fields⟩, fun again => ?_, fun f hf hkf ne => ?_⟩
    · exact distinct (onTime e) (others ▸ again) rfl
    · have mem : f.onTime ∈ e.onTime :: rest :=
        first ▸ Schedule.mem_jumped.2 ⟨f, hf, Entry.keptAt_iff.2 hkf, rfl⟩
      exact others ▸ (List.mem_cons.1 mem).resolve_left fun same =>
        ne (sound.orderable.eq_of_start hf he (congrArg (fun g : Entry => g.start) same :))
  · refine List.ne_nil_of_mem (List.mem_filter.2 ⟨he, ?_⟩)
    rw [Bool.not_eq_true', Bool.eq_false_iff, Ne, Entry.keptAt_iff]
    exact hk
  · obtain ⟨f, hf, hk, rfl⟩ := Schedule.mem_jumped.1 (entries.subset he)
    exact ⟨Entry.keptAt_iff.1 hk, f, hf, rfl⟩
  · have same : z.schedule.entries = (x.schedule.jumped v).entries := all busy
    exact same ▸ Schedule.mem_jumped.2 ⟨e, he, Entry.keptAt_iff.2 hk, rfl⟩
  · exact jump.running idle armed
  · exact jump.armed armed (ChannelState.upToGrant_record (x := { x with parser := p }) hr)

end Sys2Proof.Machine
end
